-- ==== Sys2Proof/Word.lean ====
section
/-! DEFINITION. The widths of I2CM-TC: a host word is 32 bits (20_memory.md R60, 30_encoding.md R80), a bus byte
8 bits and a slave address 7 bits (00_scope.md R9). -/

namespace Sys2Proof

/-- A host register as accessed, and a command word: 32 bits (R60, R80). -/
abbrev Word := BitVec 32

/-- A byte on the bus, and an 8-bit sensor register or its address (R9, R62). -/
abbrev Byte := BitVec 8

/-- A slave address: 7 bits (R9). -/
abbrev Addr7 := BitVec 7

end Sys2Proof
end

