-- ==== Sys2Proof/Syntax.lean ====
section
/-! DEFINITION. The commands of I2CM-TC: one constructor for each row of the opcode table (30_encoding.md R81), with
the operands of R83 to R85. -/

namespace Sys2Proof

/-- A transaction's direction bit: write is 0, read is 1 (30_encoding.md R83, 10_state.md R29). -/
inductive Dir where
  | write
  | read
  deriving DecidableEq, Repr

/-- The ten commands (30_encoding.md R81, R82). Every value of every operand is encodable. -/
inductive Instr where
  /-- START: begin a transaction or repeat the start, and address a slave (R110). -/
  | start (addr : Addr7) (dir : Dir)
  /-- WRITE_BYTE: send one data byte (R112). -/
  | writeByte (byte : Byte)
  /-- READ_BYTE: receive one byte, then send `ack` (true is ACK) (R116). -/
  | readByte (ack : Bool)
  /-- STOP: send a stop condition and wait for Idle (R122). -/
  | stop
  /-- RECOVER: force the bus back to Idle (R130). -/
  | recover
  /-- READ_REG: read one sensor register with bounded retry (R146). -/
  | readReg (reg : Byte)
  /-- WRITE_REG: write one sensor register with bounded retry (R148). -/
  | writeReg (reg : Byte) (value : Byte)
  /-- LOAD_CAL: read and commit the calibration coefficients (R163). -/
  | loadCal
  /-- READ_RAW: read and assemble the raw sample (R182). -/
  | readRaw
  /-- CALC_TEMP: compensate the raw sample (R189). -/
  | calcTemp
  deriving DecidableEq, Repr

end Sys2Proof
end

