-- ==== Sys2Proof/WellFormed.lean ====
section
/-! DEFINITION. Which command words are legal: `WellFormed` of 30_encoding.md R86, over the fields of R80. A term of
`Instr` needs no check of its own: every operand has exactly the width the encoding gives it (R82 to R85). -/

namespace Sys2Proof

/-- `OP`, bits [31:28] (R80). -/
def opField (w : Word) : BitVec 4 := w.extractLsb' 28 4
/-- `RSV`, bits [27:16] (R80). -/
def rsvField (w : Word) : BitVec 12 := w.extractLsb' 16 12
/-- `REG`, bits [15:8] (R80). -/
def regField (w : Word) : Byte := w.extractLsb' 8 8
/-- `ARG`, bits [7:0] (R80). -/
def argField (w : Word) : Byte := w.extractLsb' 0 8

/-- R86's first line: the opcode is one of 0x1 .. 0xA. -/
def opLegal (w : Word) : Bool := decide (1 ≤ (opField w).toNat) && decide ((opField w).toNat ≤ 10)

/-- R86's second line: the reserved field is 0. -/
def rsvLegal (w : Word) : Bool := decide (rsvField w = 0)

/-- R86's third line: `REG` is 0 unless the command has a register operand. -/
def regLegal (w : Word) : Bool :=
  decide (opField w = 0x6) || decide (opField w = 0x7) || decide (regField w = 0)

/-- R86's fourth line: READ_BYTE's bits [7:1] are 0. -/
def ackArgLegal (w : Word) : Bool := !decide (opField w = 0x3) || decide (w.extractLsb' 1 7 = 0)

/-- R86's fifth line: `ARG` is 0 for the commands that take no argument in it. -/
def noArgLegal (w : Word) : Bool :=
  !([0x4, 0x5, 0x6, 0x8, 0x9, 0xA].contains (opField w)) || decide (argField w = 0)

/-- `WellFormed(w)` of R86, total on all words. -/
def wellFormed (w : Word) : Bool :=
  opLegal w && rsvLegal w && regLegal w && ackArgLegal w && noArgLegal w

end Sys2Proof
end

