-- ==== Sys2Proof/Decode.lean ====
section
/-! DEFINITION. Decoding a command word (30_encoding.md R80 to R87), total on all 2^32 words and refusing by name, the
encoder written from the same tables, and the first-matching-row reader of the opcode table (R93). -/

namespace Sys2Proof

/-- Why a word is no command (R86, R87). Every one of them completes with ILLEGAL_COMMAND. -/
inductive IllegalWord where
  /-- The opcode is 0x0 or 0xB–0xF. -/
  | opcode
  /-- A bit of `RSV` is set. -/
  | reserved
  /-- `REG` is nonzero where the command has no register operand. -/
  | reg
  /-- A bit of `ARG` that must be 0 is set. -/
  | arg
  deriving DecidableEq, Repr

/-- The direction START's bit [0] stands for: 1 is read (R83). -/
def Dir.ofBit (b : Bool) : Dir := if b then .read else .write

/-- The direction bit (R83). -/
def Dir.bit : Dir → BitVec 1
  | .write => 0
  | .read => 1

/-- A command without operands: `REG` and `ARG` must be 0 (R82). -/
def decodePlain (w : Word) (i : Instr) : Except IllegalWord Instr :=
  if regField w ≠ 0 then .error .reg else if argField w ≠ 0 then .error .arg else .ok i

/-- Decode a command word (R81 to R86). -/
def decode (w : Word) : Except IllegalWord Instr :=
  if rsvField w ≠ 0 then .error .reserved else
  match (opField w).toNat with
  | 0x1 => if regField w ≠ 0 then .error .reg else .ok (.start (w.extractLsb' 1 7) (Dir.ofBit (w.getLsbD 0)))
  | 0x2 => if regField w ≠ 0 then .error .reg else .ok (.writeByte (argField w))
  | 0x3 =>
    if regField w ≠ 0 then .error .reg
    else if w.extractLsb' 1 7 ≠ 0 then .error .arg else .ok (.readByte (w.getLsbD 0))
  | 0x4 => decodePlain w .stop
  | 0x5 => decodePlain w .recover
  | 0x6 => if argField w ≠ 0 then .error .arg else .ok (.readReg (regField w))
  | 0x7 => .ok (.writeReg (regField w) (argField w))
  | 0x8 => decodePlain w .loadCal
  | 0x9 => decodePlain w .readRaw
  | 0xA => decodePlain w .calcTemp
  | _ => .error .opcode

/-- The one command format: `OP` ++ `RSV` = 0 ++ `REG` ++ `ARG` (R80). -/
def commandWord (op : BitVec 4) (reg arg : Byte) : Word := op ++ (0 : BitVec 12) ++ reg ++ arg

/-- The address byte of START: `a ++ d` (R83; 40_transport.md R111). -/
def addressByte (a : Addr7) (d : Dir) : Byte := a ++ d.bit

/-- The opcode of each command (R81). -/
def Instr.opcode : Instr → BitVec 4
  | .start _ _ => 0x1
  | .writeByte _ => 0x2
  | .readByte _ => 0x3
  | .stop => 0x4
  | .recover => 0x5
  | .readReg _ => 0x6
  | .writeReg _ _ => 0x7
  | .loadCal => 0x8
  | .readRaw => 0x9
  | .calcTemp => 0xA

/-- The command word of an instruction, every reserved field 0 (R82 to R85, R88). -/
def encode (i : Instr) : Word :=
  match i with
  | .start a d => commandWord i.opcode 0 (addressByte a d)
  | .writeByte b => commandWord i.opcode 0 b
  | .readByte k => commandWord i.opcode 0 (if k then 1 else 0)
  | .stop => commandWord i.opcode 0 0
  | .recover => commandWord i.opcode 0 0
  | .readReg r => commandWord i.opcode r 0
  | .writeReg r x => commandWord i.opcode r x
  | .loadCal => commandWord i.opcode 0 0
  | .readRaw => commandWord i.opcode 0 0
  | .calcTemp => commandWord i.opcode 0 0

/-- One row of the opcode table: its mnemonic and its `match` and `mask` over the word (R93). -/
structure TableRow where
  mnemonic : String
  value : Word
  mask : Word
  deriving DecidableEq, Repr

/-- The opcode table, in its order (R81, R93). -/
def opcodeTable : List TableRow :=
  [ ⟨"START", 0x10000000, 0xFFFFFF00⟩,
    ⟨"WRITE_BYTE", 0x20000000, 0xFFFFFF00⟩,
    ⟨"READ_BYTE", 0x30000000, 0xFFFFFFFE⟩,
    ⟨"STOP", 0x40000000, 0xFFFFFFFF⟩,
    ⟨"RECOVER", 0x50000000, 0xFFFFFFFF⟩,
    ⟨"READ_REG", 0x60000000, 0xFFFF00FF⟩,
    ⟨"WRITE_REG", 0x70000000, 0xFFFF0000⟩,
    ⟨"LOAD_CAL", 0x80000000, 0xFFFFFFFF⟩,
    ⟨"READ_RAW", 0x90000000, 0xFFFFFFFF⟩,
    ⟨"CALC_TEMP", 0xA0000000, 0xFFFFFFFF⟩ ]

/-- A word matches a row when `(w & mask) == match` (R93). -/
def TableRow.matchesWord (r : TableRow) (w : Word) : Bool := decide (w &&& r.mask = r.value)

/-- The mnemonic of the first matching row (R93). -/
def tableMnemonic (w : Word) : Option String := (opcodeTable.find? (·.matchesWord w)).map (·.mnemonic)

/-- The mnemonic of an instruction, as R81 spells it. -/
def Instr.mnemonic : Instr → String
  | .start _ _ => "START"
  | .writeByte _ => "WRITE_BYTE"
  | .readByte _ => "READ_BYTE"
  | .stop => "STOP"
  | .recover => "RECOVER"
  | .readReg _ => "READ_REG"
  | .writeReg _ _ => "WRITE_REG"
  | .loadCal => "LOAD_CAL"
  | .readRaw => "READ_RAW"
  | .calcTemp => "CALC_TEMP"

/-- The command word the opcode table's bits stand for: a command is one 32-bit word (R80), of which the table gives
the low `nbits`. -/
def tableWord (nbits w : Nat) : Word := BitVec.ofNat 32 (w % 2 ^ nbits)

/-- The instruction the decoder reads from a table row's word; none where it refuses, and none for more than the 32
bits every command has (R80). -/
def decodeTableWord (nbits w : Nat) : Option Instr :=
  if nbits ≤ 32 then (decode (tableWord nbits w)).toOption else none

end Sys2Proof
end

