-- ==== Sys2Proof/Config.lean ====
section
/-! DEFINITION. The implementation parameters of 00_scope.md R9 and the free values of the bus environment ENV
(10_state.md R41): what the spec leaves OPEN or draws without a law. -/

namespace Sys2Proof

/-- The bus-state monitor's report, the source's BusState (10_state.md R25). The fourth code of the two-bit field is
never produced, so it has no constructor. -/
inductive BusState where
  | idle
  | busy
  | error
  deriving DecidableEq, Repr, Inhabited

/-- The readiness flags a bounded wait polls (10_state.md R41). -/
inductive WaitKind where
  | addrDone
  | txDone
  | rxDone
  deriving DecidableEq, Repr

/-- The parameters of 00_scope.md R9, which the model takes as an argument: every state carries one (assumption 3).
Register addresses whose successors are used too are bounded so that the successor is an 8-bit address. -/
structure Config where
  /-- `POLL_LIMIT`: the most polls of one bounded wait, at least 1. -/
  pollLimit : Nat
  /-- `RETRY_LIMIT`: the attempts of one register access, 1 to 15. -/
  retryLimit : Nat
  /-- `BLOCK_BASE` divided by 0x40 (the base is a multiple of 0x40). -/
  blockSlot : Nat
  /-- `CAL_T1_REG`, 0x00..0xFE. -/
  calT1Reg : Fin 255
  /-- `CAL_T2_REG`, 0x00..0xFE. -/
  calT2Reg : Fin 255
  /-- `CAL_T3_REG`, 0x00..0xFF. -/
  calT3Reg : Byte
  /-- `ADC_REG`, 0x00..0xFD. -/
  adcReg : Fin 254
  deriving DecidableEq, Repr

/-- `BLOCK_BASE`, the host address of the register window (R9, R60). -/
def Config.blockBase (c : Config) : Nat := 0x40 * c.blockSlot

/-- The ranges R9 gives the two limits; the other ranges are in the types. -/
abbrev Config.Valid (c : Config) : Prop := 1 ≤ c.pollLimit ∧ 1 ≤ c.retryLimit ∧ c.retryLimit ≤ 15

/-- OPEN in R9: where the window sits. No body: nothing can be proved of it. -/
opaque Config.platformBlockSlot : Nat
/-- OPEN in R9. No body. -/
opaque Config.platformCalT1Reg : Fin 255
/-- OPEN in R9. No body. -/
opaque Config.platformCalT2Reg : Fin 255
/-- OPEN in R9. No body. -/
opaque Config.platformCalT3Reg : Byte
/-- OPEN in R9. No body. -/
opaque Config.platformAdcReg : Fin 254

/-- The configuration the reset state carries: the two limits at the values R9 fixes, the OPEN parameters free. -/
def Config.platform : Config where
  pollLimit := 1000
  retryLimit := 3
  blockSlot := Config.platformBlockSlot
  calT1Reg := Config.platformCalT1Reg
  calT2Reg := Config.platformCalT2Reg
  calT3Reg := Config.platformCalT3Reg
  adcReg := Config.platformAdcReg

/-- `EnvReady(k)` (R41), free, for each number of draws taken before. No body. -/
opaque Config.freeReady : WaitKind → Nat → Bool
/-- `EnvAck()` (R41), free. No body. -/
opaque Config.freeAck : Nat → Bool
/-- `EnvRxByte()` (R41), free. No body. -/
opaque Config.freeRxByte : Nat → Byte
/-- `EnvBusState()` (R41), free. No body. -/
opaque Config.freeBusState : Nat → BusState
/-- What `STATUS.BUS_STATE` reads while `BUSY` = 1 (20_memory.md R67), free in Idle, Busy, Error. No body. -/
opaque Config.freeBusyRead : Nat → BusState

end Sys2Proof
end

