-- ==== Sys2Proof/Machine/State.lean ====
section
/-! DEFINITION. The state of I2CM-TC as plain data (10_state.md): the nine host-visible registers, `STATUS` by its
fields, the bus event log, and the model's own fields for the agents outside the block (ENV's answers, what moves next,
what the HOST has read) and for the configuration. The registers have no Option for want of a reset value; the two Options
of `Status` are codes whose 0 means none. -/

namespace Sys2Proof.Machine

/-- `STATUS.PHASE`, the master's own transaction state (R26). -/
inductive Phase where
  | idle
  | addressing
  | dataPhase
  | error
  deriving DecidableEq, Repr

/-- The causes of a bus failure (40_transport.md R103), the nonzero values of `STATUS.LASTERR` (R35). -/
inductive BusFailure where
  | noAck
  | timeout
  | busWedged
  deriving DecidableEq, Repr

/-- The failure result codes 1 to 9 (60_exceptions.md R200). Codes 10–15 are reserved and never written, so they have no
constructor. A failure is an ordinary completion of a command, not a fault of the model (R205). -/
inductive Failure where
  /-- NO_ACK, TIMEOUT and BUS_WEDGED, codes 1 to 3. -/
  | bus (cause : BusFailure)
  /-- ACCESS_EXHAUSTED, code 4. -/
  | accessExhausted
  /-- CAL_READ_FAILURE, code 5. -/
  | calReadFailure
  /-- SEQUENCE_ERROR, code 6. -/
  | sequenceError
  /-- NOT_CALIBRATED, code 7. -/
  | notCalibrated
  /-- CAL_LOCKED, code 8. -/
  | calLocked
  /-- ILLEGAL_COMMAND, code 9. -/
  | illegalCommand
  deriving DecidableEq, Repr

/-- How a procedure of the pseudocode ends: `Ok(v)`, or `raise C` (40_transport.md R104). -/
inductive Ended (α : Type) where
  | ok (v : α)
  | raised (f : Failure)
  deriving DecidableEq, Repr

/-- The fields of `STATUS` (R23). Its reserved bits are not held: they always read 0 (R36). -/
structure Status where
  /-- `RESULT` [3:0]: none is OK, code 0 (R24). -/
  result : Option Failure
  /-- `BUS_STATE` [5:4] (R25). -/
  busState : BusState
  /-- `PHASE` [7:6] (R26). -/
  phase : Phase
  /-- `BUSY` [8] (R27). -/
  busy : Bool
  /-- `OVR` [9] (R28). -/
  ovr : Bool
  /-- `DIR` [10] (R29). -/
  dir : Dir
  /-- `RXEND` [11] (R30). -/
  rxEnd : Bool
  /-- `ACK` [12] (R31). -/
  ack : Bool
  /-- `CAL_VALID` [13] (R32). -/
  calValid : Bool
  /-- `TEMP_OVF` [14] (R33). -/
  tempOvf : Bool
  /-- `ATTEMPTS` [19:16] (R34). -/
  attempts : BitVec 4
  /-- `LASTERR` [21:20]: none is code 0 (R35). -/
  lastErr : Option BusFailure
  deriving DecidableEq, Repr

/-- One entry of `BUSLOG` (R40). -/
inductive BusEvent where
  | startCond
  | repStart
  | addrByte (b : Byte)
  | txByte (b : Byte)
  | rxByte (b : Byte)
  /-- The master's acknowledge bit after a received byte: true is ACK. -/
  | masterAck (k : Bool)
  | stopCond
  | forcedStop
  | forceIdle
  deriving DecidableEq, Repr

/-- The answers of the bus environment ENV to the draws of R41, which no law constrains: for each kind of draw the
answers still to come, and the number of draws taken. A draw takes the next answer of its kind; where none is listed it
is a free value of Config at the number of draws taken (assumption 1). The MODEL's own fields: inputs of the block. -/
structure Env where
  /-- The next answers of `EnvReady(k)`. -/
  ready : List Bool
  /-- The next answers of `EnvAck()`, true for ACK. -/
  acks : List Bool
  /-- The next answers of `EnvRxByte()`. -/
  rxBytes : List Byte
  /-- The next answers of `EnvBusState()`. -/
  busStates : List BusState
  /-- What the next HOST reads of `STATUS.BUS_STATE` while `BUSY` = 1 return (20_memory.md R67). -/
  busyReads : List BusState
  /-- The draws of R41 taken so far (the ENV draws that 70_reset_and_hazards.md R244 counts). -/
  drawn : Nat
  /-- The draws of R67 taken so far. -/
  busyDrawn : Nat
  deriving DecidableEq, Repr

/-- Which software makes a HOST access: the one HOST thread, or an interrupt handler (70_reset_and_hazards.md R241). -/
inductive Origin where
  | thread
  | handler
  deriving DecidableEq, Repr

/-- A HOST access: who makes it, at which host address, how many bytes wide (20_memory.md R63, R64, R68). -/
structure Access where
  origin : Origin
  addr : Nat
  width : Nat
  deriving DecidableEq, Repr

/-- One move of an agent (00_scope.md R7). -/
inductive Action where
  /-- HOST reads the window (R63). -/
  | hostRead (a : Access)
  /-- HOST writes the window (R64). -/
  | hostWrite (a : Access) (v : Word)
  /-- SEQ completes the accepted command (40_transport.md R105). -/
  | complete
  /-- ENV sets `BUS_STATE` while no command executes (R42). -/
  | envBusState (b : BusState)
  /-- The platform asserts the block reset (70_reset_and_hazards.md R230, R231). -/
  | reset
  deriving DecidableEq, Repr

/-- The state of the machine. -/
structure State where
  /-- `CMD`, the last accepted command word (R37). -/
  cmd : Word
  /-- `STATUS` (R23). -/
  status : Status
  /-- `DATA`, the last byte received by READ_BYTE or READ_REG (R21). -/
  data : Byte
  /-- `SLAVE_ADDR` (R21). -/
  slaveAddr : Addr7
  /-- `CAL_T1`, unsigned (R38). -/
  calT1 : BitVec 16
  /-- `CAL_T2`, signed (R38). -/
  calT2 : BitVec 16
  /-- `CAL_T3`, signed (R38). -/
  calT3 : BitVec 8
  /-- `RAW`, unsigned 20 bits (R21). -/
  raw : BitVec 20
  /-- `TEMP`, signed (R21). -/
  temp : BitVec 16
  /-- `BUSLOG`, oldest first (R40). -/
  busLog : List BusEvent
  /-- MODEL's own: ENV's answers (R41). -/
  env : Env
  /-- MODEL's own: the moves the agents make next, first one first (assumption 2). -/
  agenda : List Action
  /-- MODEL's own: the values the HOST has read, oldest first (00_scope.md R17). -/
  reads : List Word
  /-- MODEL's own: the implementation parameters (00_scope.md R9), which no step changes (assumption 3). -/
  cfg : Config
  deriving DecidableEq, Repr

/-- Why a step stops the machine. -/
inductive Fault where
  /-- A HOST access no byte of which lies in the register window: the spec gives the block no other host address
  (20_memory.md R60, R62, R71). Raised by HOST accesses only. Safe: the run stops. -/
  | outsideWindow
  deriving DecidableEq, Repr

/-- Why a step has no meaning. -/
inductive Refusal where
  /-- An instruction without a meaning yet; no arm of this model answers with it. Safe. -/
  | notModelled (mnemonic : String)
  /-- A HOST access to the window that is not 4 bytes wide at an offset that is a multiple of 4, which the spec refuses
  (20_memory.md R68; 93_implementation_defined.md). Raised by HOST accesses only. Safe. -/
  | subWordOrMisaligned
  /-- A HOST access to the window from an interrupt handler, which the spec refuses (70_reset_and_hazards.md R241;
  93_implementation_defined.md). Raised by HOST accesses only. Safe. -/
  | handlerAccess
  deriving DecidableEq, Repr

/-- `STATUS` = 0 (R23, R46). -/
def Status.reset : Status where
  result := none
  busState := .idle
  phase := .idle
  busy := false
  ovr := false
  dir := .write
  rxEnd := false
  ack := false
  calValid := false
  tempOvf := false
  attempts := 0
  lastErr := none

/-- No answer listed and no draw taken: every draw is a free value (assumption 1). -/
def Env.unscripted : Env where
  ready := []
  acks := []
  rxBytes := []
  busStates := []
  busyReads := []
  drawn := 0
  busyDrawn := 0

/-- The machine after reset (R46): every register 0, `BUSLOG` empty, no command accepted. The model's own fields hold no
answer, no move and no value read, and the configuration of R9. -/
def State.reset : State where
  cmd := 0
  status := Status.reset
  data := 0
  slaveAddr := 0
  calT1 := 0
  calT2 := 0
  calT3 := 0
  raw := 0
  temp := 0
  busLog := []
  env := Env.unscripted
  agenda := []
  reads := []
  cfg := Config.platform

end Sys2Proof.Machine
end

