-- ==== Sys2Proof/Machine/Flags.lean ====
section
/-! DEFINITION. The codes of the fields of `STATUS`, the word a HOST reads of it (10_state.md R23), the result code of
a completion (60_exceptions.md R200), and the overflow flag of CALC_TEMP (43_compensation.md R189). -/

namespace Sys2Proof.Machine

/-- The codes of R25. -/
def busStateCode : BusState → BitVec 2
  | .idle => 0
  | .busy => 1
  | .error => 2

/-- The codes of R26. -/
def phaseCode : Phase → BitVec 2
  | .idle => 0
  | .addressing => 1
  | .dataPhase => 2
  | .error => 3

/-- `LASTERR` of R35: NO_ACK 1, TIMEOUT 2, BUS_WEDGED 3. -/
def busFailureCode : BusFailure → BitVec 2
  | .noAck => 1
  | .timeout => 2
  | .busWedged => 3

/-- `LASTERR` (R35): 0 where there was no bus failure. -/
def lastErrCode : Option BusFailure → BitVec 2
  | none => 0
  | some c => busFailureCode c

/-- The failure codes of R200. -/
def failureCode : Failure → BitVec 4
  | .bus .noAck => 1
  | .bus .timeout => 2
  | .bus .busWedged => 3
  | .accessExhausted => 4
  | .calReadFailure => 5
  | .sequenceError => 6
  | .notCalibrated => 7
  | .calLocked => 8
  | .illegalCommand => 9

/-- `RESULT` (R24, R200): OK is 0. -/
def resultCode : Option Failure → BitVec 4
  | none => 0
  | some f => failureCode f

/-- The result a completion writes: OK for `Ok` and `Ok(v)`, else the code raised (40_transport.md R105). -/
def Ended.result {α : Type} : Ended α → Option Failure
  | .ok _ => none
  | .raised f => some f

/-- A one-bit field. -/
def flagBit (b : Bool) : BitVec 1 := BitVec.ofBool b

/-- `STATUS` as the HOST reads it (R23), bits [31:22] and [15] 0 (R36). -/
def statusWord (st : Status) : Word :=
  (0 : BitVec 10) ++ lastErrCode st.lastErr ++ st.attempts ++ (0 : BitVec 1) ++ flagBit st.tempOvf ++
    flagBit st.calValid ++ flagBit st.ack ++ flagBit st.rxEnd ++ st.dir.bit ++ flagBit st.ovr ++ flagBit st.busy ++
    phaseCode st.phase ++ busStateCode st.busState ++ resultCode st.result

/-- `TEMP`: the two's-complement low 16 bits of the exact value (43_compensation.md R189). -/
def tempLatch (t : Int) : BitVec 16 := BitVec.ofInt 16 t

/-- `TEMP_OVF`: the exact value lies outside −32768..32767 (R189; 10_state.md R33). -/
def tempOverflows (t : Int) : Bool := decide (t < -32768) || decide (32767 < t)

end Sys2Proof.Machine
end

