-- ==== Sys2Proof/Machine/Operands.lean ====
section
/-! DEFINITION. How values are assembled: the coefficients and the raw sample from bus bytes, the sensor register
addresses of the configuration, and the compensation function on exact integers. START's address byte is `addressByte`
of Decode.lean. -/

namespace Sys2Proof.Machine

/-- The sensor register address `reg + n` (42_calibration.md R161, 43_compensation.md R182); the ranges of Config keep
it an 8-bit address. -/
def regPlus (reg n : Nat) : Byte := BitVec.ofNat 8 (reg + n)

/-- `T1 = b1 ++ b0`, `T2 = signed16(b3 ++ b2)`: a little-endian pair (42_calibration.md R162; 20_memory.md R69). The
sign is in how the register is read, `toNat` for T1 and `toInt` for T2. -/
def pairLE (lo hi : Byte) : BitVec 16 := hi ++ lo

/-- `RawAssemble`: `msb ++ lsb ++ xlsb[7:4]` (43_compensation.md R180). -/
def rawAssemble (msb lsb xlsb : Byte) : BitVec 20 := msb ++ lsb ++ xlsb.extractLsb' 4 4

/-- `a >> n` on integers: the floor of `a / 2^n`, toward −∞ (00_scope.md R12, 43_compensation.md R185). -/
def shr (a : Int) (n : Nat) : Int := a / 2 ^ n

/-- `a << n` on integers: `a · 2^n` (R12, R185). -/
def shl (a : Int) (n : Nat) : Int := a * 2 ^ n

/-- `var1` of R184. -/
def compVar1 (raw t1 : Int) : Int := shr raw 3 - shl t1 1

/-- `var2` of R184. -/
def compVar2 (var1 t2 : Int) : Int := shr (var1 * t2) 11

/-- The squared term of R184, `var3` as first assigned. -/
def compSquare (var1 : Int) : Int := shr (shr var1 1 * shr var1 1) 12

/-- `var3` of R184 as last assigned. -/
def compVar3 (var1 t3 : Int) : Int := shr (compSquare var1 * shl t3 4) 14

/-- `t_fine` of R184; the block holds no register of it (10_state.md R39). -/
def compTFine (raw t1 t2 t3 : Int) : Int :=
  compVar2 (compVar1 raw t1) t2 + compVar3 (compVar1 raw t1) t3

/-- `Compensate` of R184, on exact integers (R185): hundredths of a degree Celsius, no further scaling (R190). -/
def compensate (raw t1 t2 t3 : Int) : Int := shr (compTFine raw t1 t2 t3 * 5 + 128) 8

/-- `Compensate` of the registers: `RAW` and `CAL_T1` unsigned, `CAL_T2` and `CAL_T3` signed (R189; 10_state.md R38). -/
def compensateRegs (raw : BitVec 20) (t1 t2 : BitVec 16) (t3 : BitVec 8) : Int :=
  compensate raw.toNat t1.toNat t2.toInt t3.toInt

end Sys2Proof.Machine
end

