-- ==== Sys2Proof/Machine/Ops.lean ====
section
/-! DEFINITION. The shared operations: one named update per field of the state, ENV's draws, the transport procedures
of 40_transport.md, the retry policy of 41_register_access.md, and completion (R105). The block takes no exception and
returns from none (60_exceptions.md R205, R208): what a failure records is `busFail` and `complete` below, and the way
back from a failed primitive is `recoverProc`. -/

namespace Sys2Proof.Machine

/-! ### Updates of one field -/

def setCmd (w : Word) (s : State) : State := { s with cmd := w }
def setData (b : Byte) (s : State) : State := { s with data := b }
def setSlaveAddr (a : Addr7) (s : State) : State := { s with slaveAddr := a }
def setRaw (r : BitVec 20) (s : State) : State := { s with raw := r }
def setTemp (t : BitVec 16) (s : State) : State := { s with temp := t }
def setEnv (e : Env) (s : State) : State := { s with env := e }
def setAgenda (l : List Action) (s : State) : State := { s with agenda := l }

def setResult (r : Option Failure) (s : State) : State := { s with status := { s.status with result := r } }
def setBusState (b : BusState) (s : State) : State := { s with status := { s.status with busState := b } }
def setPhase (p : Phase) (s : State) : State := { s with status := { s.status with phase := p } }
def setBusy (b : Bool) (s : State) : State := { s with status := { s.status with busy := b } }
def setOvr (b : Bool) (s : State) : State := { s with status := { s.status with ovr := b } }
def setDir (d : Dir) (s : State) : State := { s with status := { s.status with dir := d } }
def setRxEnd (b : Bool) (s : State) : State := { s with status := { s.status with rxEnd := b } }
def setAck (b : Bool) (s : State) : State := { s with status := { s.status with ack := b } }
def setTempOvf (b : Bool) (s : State) : State := { s with status := { s.status with tempOvf := b } }
def setAttempts (n : Nat) (s : State) : State := { s with status := { s.status with attempts := BitVec.ofNat 4 n } }
def setLastErr (c : Option BusFailure) (s : State) : State := { s with status := { s.status with lastErr := c } }

/-- The commit of LOAD_CAL: the three coefficients and `CAL_VALID` together (42_calibration.md R163, R164). -/
def commitCal (t1 t2 : BitVec 16) (t3 : BitVec 8) (s : State) : State :=
  { s with calT1 := t1, calT2 := t2, calT3 := t3, status := { s.status with calValid := true } }

/-- `BusEmit(e)`: append to the end of `BUSLOG` (R102). -/
def emit (e : BusEvent) (s : State) : State := { s with busLog := s.busLog ++ [e] }

/-- The HOST has read `v` (00_scope.md R17). -/
def logRead (v : Word) (s : State) : State := { s with reads := s.reads ++ [v] }

/-! ### ENV's draws (10_state.md R41) -/

/-- `EnvReady(k)`. -/
def drawReady (k : WaitKind) (e : Env) : Bool × Env :=
  match e.ready with
  | [] => (Config.freeReady k e.drawn, { e with drawn := e.drawn + 1 })
  | b :: rest => (b, { e with ready := rest, drawn := e.drawn + 1 })

/-- `EnvAck()`. -/
def drawAck (e : Env) : Bool × Env :=
  match e.acks with
  | [] => (Config.freeAck e.drawn, { e with drawn := e.drawn + 1 })
  | b :: rest => (b, { e with acks := rest, drawn := e.drawn + 1 })

/-- `EnvRxByte()`. -/
def drawRxByte (e : Env) : Byte × Env :=
  match e.rxBytes with
  | [] => (Config.freeRxByte e.drawn, { e with drawn := e.drawn + 1 })
  | b :: rest => (b, { e with rxBytes := rest, drawn := e.drawn + 1 })

/-- `EnvBusState()`. -/
def drawBusState (e : Env) : BusState × Env :=
  match e.busStates with
  | [] => (Config.freeBusState e.drawn, { e with drawn := e.drawn + 1 })
  | b :: rest => (b, { e with busStates := rest, drawn := e.drawn + 1 })

/-- The draw of a HOST read of `STATUS.BUS_STATE` while `BUSY` = 1 (20_memory.md R67). -/
def drawBusyRead (e : Env) : BusState × Env :=
  match e.busyReads with
  | [] => (Config.freeBusyRead e.busyDrawn, { e with busyDrawn := e.busyDrawn + 1 })
  | b :: rest => (b, { e with busyReads := rest, busyDrawn := e.busyDrawn + 1 })

/-! ### Procedures -/

/-- What running a procedure gives: how it ended, and the state it left. Writes made before a `raise` stay. -/
abbrev Run (α : Type) := Ended α × State

/-- `p()?` and then the rest: a failure is passed on unchanged (00_scope.md R13; 40_transport.md R104). -/
def andThen {α β : Type} (r : Run α) (rest : α → State → Run β) : Run β :=
  match r.1 with
  | .ok v => rest v r.2
  | .raised f => (.raised f, r.2)

/-- `raise C` with no other effect. -/
def raise {α : Type} (f : Failure) (s : State) : Run α := (.raised f, s)

/-- `WaitReady(k)` with `n` polls left, on ENV's answers: true for Ready, false for Expired (R100). -/
def waitReady (k : WaitKind) : Nat → Env → Bool × Env
  | 0, e => (false, e)
  | n + 1, e => if (drawReady k e).1 then (true, (drawReady k e).2) else waitReady k n (drawReady k e).2

/-- A bounded wait of the block: it writes no register and emits no event (R100). -/
def waitFor (k : WaitKind) (s : State) : Bool × State :=
  let w := waitReady k s.cfg.pollLimit s.env
  (w.1, setEnv w.2 s)

/-- `SampleBusState()` (R101). -/
def sampleBus (s : State) : BusState × State :=
  let d := drawBusState s.env
  (d.1, setBusState d.1 (setEnv d.2 s))

/-- `ACK <- EnvAck()` (R110, R112). -/
def sampleAck (s : State) : Bool × State :=
  let d := drawAck s.env
  (d.1, setAck d.1 (setEnv d.2 s))

/-- `BusFail(c)` (R103). -/
def busFail {α : Type} (c : BusFailure) (s : State) : Run α := raise (.bus c) (setLastErr (some c) (setPhase .error s))

/-- The tail START and WRITE_BYTE share: wait, then the slave's acknowledge (R110, R112). -/
def awaitAck (k : WaitKind) (s : State) : Run Unit :=
  let w := waitFor k s
  if w.1 then
    let a := sampleAck w.2
    if a.1 then (.ok (), a.2) else busFail .noAck a.2
  else busFail .timeout w.2

/-- `Start(a, d)` from `PHASE <- Addressing` on (R110). -/
def addressSlave (a : Addr7) (d : Dir) (s : State) : Run Unit :=
  andThen (awaitAck .addrDone (emit (.addrByte (addressByte a d)) (setRxEnd false (setDir d (setPhase .addressing s)))))
    fun _ t => (.ok (), setPhase .dataPhase t)

/-- `Start(a, d)` (R110). -/
def startProc (a : Addr7) (d : Dir) (s : State) : Run Unit :=
  match s.status.phase with
  | .idle =>
    let b := sampleBus s
    if b.1 = .idle then addressSlave a d (emit .startCond b.2) else busFail .busWedged b.2
  | .dataPhase => addressSlave a d (emit .repStart s)
  | .addressing => raise .sequenceError s
  | .error => raise .sequenceError s

/-- `WriteByte(b)` (R112). -/
def writeByteProc (b : Byte) (s : State) : Run Unit :=
  if s.status.phase = .dataPhase ∧ s.status.dir = .write then awaitAck .txDone (emit (.txByte b) s)
  else raise .sequenceError s

/-- `ReadByte(k)` (R116, R117). -/
def readByteProc (k : Bool) (s : State) : Run Byte :=
  if s.status.phase = .dataPhase ∧ s.status.dir = .read ∧ s.status.rxEnd = false then
    let w := waitFor .rxDone s
    if w.1 then
      let d := drawRxByte w.2.env
      let t := emit (.masterAck k) (emit (.rxByte d.1) (setEnv d.2 w.2))
      (.ok d.1, if k then t else setRxEnd true t)
    else busFail .timeout w.2
  else raise .sequenceError s

/-- `PHASE`, `DIR` and `RXEND` back to their idle values, as STOP and RECOVER leave them (R122, R130). -/
def toIdle (s : State) : State := setRxEnd false (setDir .write (setPhase .idle s))

/-- STOP's wait for Idle with `n` samples left (R122, R123). -/
def stopPoll : Nat → State → Run Unit
  | 0, s => busFail .busWedged s
  | n + 1, s => if (sampleBus s).1 = .idle then (.ok (), toIdle (sampleBus s).2) else stopPoll n (sampleBus s).2

/-- `Stop()` (R122). -/
def stopProc (s : State) : Run Unit :=
  if s.status.phase = .dataPhase then stopPoll s.cfg.pollLimit (emit .stopCond s) else raise .sequenceError s

/-- The forced stop and forced Idle of a recovery (R130, R131). -/
def forceIdle (s : State) : State := emit .forceIdle (setBusState .idle (emit .forcedStop s))

/-- `Recover()` (R130). -/
def recoverProc (s : State) : Run Unit :=
  if s.status.phase = .idle ∨ s.status.phase = .error then
    let b := sampleBus s
    (.ok (), toIdle (if b.1 = .idle then b.2 else forceIdle b.2))
  else raise .sequenceError s

/-! ### Register access (41_register_access.md) -/

/-- `RegAccess(once)` with `m` attempts left, the next being attempt `n` (R140). -/
def regAccessFrom {α : Type} (once : State → Run α) : Nat → Nat → State → Run α
  | 0, _, s => raise .accessExhausted s
  | m + 1, n, s =>
    match once (setAttempts n s) with
    | (.ok v, t) => (.ok v, t)
    | (.raised _, t) => regAccessFrom once m (n + 1) (recoverProc t).2

/-- `RegAccess(once)` (R140). -/
def regAccess {α : Type} (once : State → Run α) (s : State) : Run α := regAccessFrom once s.cfg.retryLimit 1 s

/-- `ReadOnce(r)` (R142). -/
def readOnce (r : Byte) (s : State) : Run Byte :=
  andThen (startProc s.slaveAddr .write s) fun _ s1 =>
  andThen (writeByteProc r s1) fun _ s2 =>
  andThen (startProc s2.slaveAddr .read s2) fun _ s3 =>
  andThen (readByteProc false s3) fun v s4 =>
  andThen (stopProc s4) fun _ s5 => (.ok v, s5)

/-- `WriteOnce(r, x)` (R143). -/
def writeOnce (r x : Byte) (s : State) : Run Unit :=
  andThen (startProc s.slaveAddr .write s) fun _ s1 =>
  andThen (writeByteProc r s1) fun _ s2 =>
  andThen (writeByteProc x s2) fun _ s3 => stopProc s3

/-- The legality of a composite: `PHASE` = Idle, else SEQUENCE_ERROR with no other effect (R145). -/
def whenIdle {α : Type} (body : State → Run α) (s : State) : Run α :=
  if s.status.phase = .idle then body s else raise .sequenceError s

/-- One register access that reads sensor register `r` (R140, R142). -/
def readSensor (r : Byte) (s : State) : Run Byte := regAccess (readOnce r) s

/-! ### Completion (40_transport.md R105) -/

/-- `Complete()` around a command's procedure: `ATTEMPTS` and `LASTERR` are cleared first, `RESULT` is written and
`BUSY` cleared last. -/
def complete {α : Type} (body : State → Run α) (s : State) : State :=
  let r := body (setLastErr none (setAttempts 0 s))
  setBusy false (setResult r.1.result r.2)

/-- The completion of a word that is not well-formed (R105; 30_encoding.md R86). -/
def completeIllegal (s : State) : State := complete (α := Unit) (raise .illegalCommand) s

end Sys2Proof.Machine
end

