-- ==== Sys2Proof/Machine/Calibration.lean ====
section
/-! DEFINITION. The calibration store command: LOAD_CAL (42_calibration.md). -/

namespace Sys2Proof.Machine

/-- One of LOAD_CAL's register accesses: exhaustion is reported as CAL_READ_FAILURE (R163, R164). -/
def readCal (r : Byte) (s : State) : Run Byte :=
  match readSensor r s with
  | (.ok v, t) => (.ok v, t)
  | (.raised .accessExhausted, t) => raise .calReadFailure t
  | (.raised f, t) => raise f t

/-- The five reads in R161's order and the commit (R162, R163). The five bytes exist only inside the completion
(10_state.md R43). -/
def loadCoefficients (s : State) : Run Unit :=
  andThen (readCal (regPlus s.cfg.calT1Reg 0) s) fun b0 s1 =>
  andThen (readCal (regPlus s.cfg.calT1Reg 1) s1) fun b1 s2 =>
  andThen (readCal (regPlus s.cfg.calT2Reg 0) s2) fun b2 s3 =>
  andThen (readCal (regPlus s.cfg.calT2Reg 1) s3) fun b3 s4 =>
  andThen (readCal s.cfg.calT3Reg s4) fun b4 s5 =>
    (.ok (), commitCal (pairLE b0 b1) (pairLE b2 b3) b4 s5)

/-- LOAD_CAL's body after the `PHASE` check: a store that is loaded is locked (R163, R165). -/
def loadStore (s : State) : Run Unit := if s.status.calValid then raise .calLocked s else loadCoefficients s

/-- LOAD_CAL (R163): the `PHASE` check, then the `CAL_VALID` check (60_exceptions.md R203). -/
def execLoadCal (s : State) : Host.Outcome State Fault Refusal := .next (complete (whenIdle loadStore) s)

end Sys2Proof.Machine
end

