-- ==== Sys2Proof/Machine/Compensation.lean ====
section
/-! DEFINITION. The raw sample and compensation commands: READ_RAW and CALC_TEMP (43_compensation.md). -/

namespace Sys2Proof.Machine

/-- The three reads in R182's order and the commit of `RAW`. -/
def readRawSample (s : State) : Run Unit :=
  andThen (readSensor (regPlus s.cfg.adcReg 0) s) fun m s1 =>
  andThen (readSensor (regPlus s.cfg.adcReg 1) s1) fun l s2 =>
  andThen (readSensor (regPlus s.cfg.adcReg 2) s2) fun x s3 => (.ok (), setRaw (rawAssemble m l x) s3)

/-- READ_RAW (R182, R183). -/
def execReadRaw (s : State) : Host.Outcome State Fault Refusal := .next (complete (whenIdle readRawSample) s)

/-- CALC_TEMP's body: legal only when `CAL_VALID` = 1, in any `PHASE` (R188, R189). -/
def calcTempProc (s : State) : Run Unit :=
  if s.status.calValid then
    let t := compensateRegs s.raw s.calT1 s.calT2 s.calT3
    (.ok (), setTempOvf (tempOverflows t) (setTemp (tempLatch t) s))
  else raise .notCalibrated s

/-- CALC_TEMP (R189). -/
def execCalcTemp (s : State) : Host.Outcome State Fault Refusal := .next (complete calcTempProc s)

end Sys2Proof.Machine
end

