-- ==== Sys2Proof/Machine/RegisterAccess.lean ====
section
/-! DEFINITION. The register access commands: READ_REG and WRITE_REG (41_register_access.md). -/

namespace Sys2Proof.Machine

/-- READ_REG's body (R146): `DATA` is written on OK only (R147). -/
def readRegister (r : Byte) (s : State) : Run Unit := andThen (readSensor r s) fun v t => (.ok (), setData v t)

/-- READ_REG (R146). -/
def execReadReg (r : Byte) (s : State) : Host.Outcome State Fault Refusal :=
  .next (complete (whenIdle (readRegister r)) s)

/-- WRITE_REG (R148). -/
def execWriteReg (r x : Byte) (s : State) : Host.Outcome State Fault Refusal :=
  .next (complete (whenIdle (regAccess (writeOnce r x))) s)

end Sys2Proof.Machine
end

