-- ==== Sys2Proof/Machine/Transport.lean ====
section
/-! DEFINITION. The primitive commands: START, WRITE_BYTE, READ_BYTE, STOP, RECOVER (40_transport.md). -/

namespace Sys2Proof.Machine

/-- START (R110). -/
def execStart (a : Addr7) (d : Dir) (s : State) : Host.Outcome State Fault Refusal :=
  .next (complete (startProc a d) s)

/-- WRITE_BYTE (R112). -/
def execWriteByte (b : Byte) (s : State) : Host.Outcome State Fault Refusal :=
  .next (complete (writeByteProc b) s)

/-- READ_BYTE's body (R116): `DATA` is written on OK only. -/
def receiveByte (k : Bool) (s : State) : Run Unit := andThen (readByteProc k s) fun v t => (.ok (), setData v t)

/-- READ_BYTE (R116). -/
def execReadByte (k : Bool) (s : State) : Host.Outcome State Fault Refusal := .next (complete (receiveByte k) s)

/-- STOP (R122). -/
def execStop (s : State) : Host.Outcome State Fault Refusal := .next (complete stopProc s)

/-- RECOVER (R130). -/
def execRecover (s : State) : Host.Outcome State Fault Refusal := .next (complete recoverProc s)

end Sys2Proof.Machine
end

