-- ==== Sys2Proof/Machine/Dispatch.lean ====
section
/-! DEFINITION. `Execute(w)`'s dispatch: one arm per command (40_transport.md R106). -/

namespace Sys2Proof.Machine

def exec (i : Instr) (s : State) : Host.Outcome State Fault Refusal :=
  match i with
  | .start a d => Sys2Proof.Machine.execStart a d s
  | .writeByte b => Sys2Proof.Machine.execWriteByte b s
  | .readByte k => Sys2Proof.Machine.execReadByte k s
  | .stop => Sys2Proof.Machine.execStop s
  | .recover => Sys2Proof.Machine.execRecover s
  | .readReg r => Sys2Proof.Machine.execReadReg r s
  | .writeReg r x => Sys2Proof.Machine.execWriteReg r x s
  | .loadCal => Sys2Proof.Machine.execLoadCal s
  | .readRaw => Sys2Proof.Machine.execReadRaw s
  | .calcTemp => Sys2Proof.Machine.execCalcTemp s

end Sys2Proof.Machine
end

