-- ==== Sys2Proof/Machine/Window.lean ====
section
/-! DEFINITION. The HOST's register window (20_memory.md): which accesses are defined, the register map, accept, and
what a read or write does. -/

namespace Sys2Proof.Machine

/-- The register map's "HOST read returns" column (R61, R63); unmapped offsets read 0. -/
def readValue (off : Nat) (s : State) : Word :=
  match off with
  | 0x00 => s.cmd
  | 0x04 => statusWord s.status
  | 0x08 => s.data.setWidth 32
  | 0x0C => s.slaveAddr.setWidth 32
  | 0x10 => s.calT1.setWidth 32
  | 0x14 => s.calT2.signExtend 32
  | 0x18 => s.calT3.signExtend 32
  | 0x1C => s.raw.setWidth 32
  | 0x20 => s.temp.signExtend 32
  | _ => 0

/-- `MemRead` at offset `off` (R63): no effect on any register. While `BUSY` = 1 the `BUS_STATE` field of `STATUS` reads
as a draw, and every other register and field as it stands, since completion commits all effects at once (R67). -/
def windowRead (off : Nat) (s : State) : State :=
  if off = 0x04 ∧ s.status.busy = true then
    let d := drawBusyRead s.env
    logRead (statusWord { s.status with busState := d.1 }) (setEnv d.2 s)
  else logRead (readValue off s) s

/-- `Accept(w)` (R65). -/
def accept (w : Word) (s : State) : State := setOvr false (setBusy true (setCmd w s))

/-- A write to `CMD`, `SLAVE_ADDR` or `RAW`: dropped while `BUSY` = 1, which sets `OVR` (R64, R66). -/
def unlessBusy (write : State → State) (s : State) : State := if s.status.busy then setOvr true s else write s

/-- `MemWrite` at offset `off` (R64). -/
def windowWrite (off : Nat) (v : Word) (s : State) : State :=
  match off with
  | 0x00 => unlessBusy (accept v) s
  | 0x0C => unlessBusy (setSlaveAddr (v.extractLsb' 0 7)) s
  | 0x1C => unlessBusy (setRaw (v.extractLsb' 0 20)) s
  | _ => s

/-- The window is 0x40 bytes (R60). -/
def windowSize : Nat := 0x40

/-- The access is to the window: some byte of it lies there. The spec is silent on an access of no byte; DESIGN CHOICE
(assumption 20): it stands at its address, so that at an address inside the window it is an access of another width, which
R68 refuses. -/
def touchesWindow (a : Access) (c : Config) : Bool :=
  decide (a.addr < c.blockBase + windowSize) && decide (c.blockBase < a.addr + max a.width 1)

/-- The access is a whole register: 4 bytes at an offset of the window that is a multiple of 4 (R68). -/
def isWordAccess (a : Access) (c : Config) : Bool :=
  decide (a.width = 4) && decide (c.blockBase ≤ a.addr) && decide ((a.addr - c.blockBase) % 4 = 0)

/-- A HOST access, with `effect` what it does at its offset: an access outside the window faults, one from an interrupt
handler and one that is not a whole aligned word are refused (R62, R68; 70_reset_and_hazards.md R241). -/
def hostAccess (a : Access) (effect : Nat → State → State) (s : State) : Host.Outcome State Fault Refusal :=
  if touchesWindow a s.cfg then
    match a.origin with
    | .handler => .refused .handlerAccess
    | .thread =>
      if isWordAccess a s.cfg then .next (effect (a.addr - s.cfg.blockBase) s) else .refused .subWordOrMisaligned
  else .fault .outsideWindow

end Sys2Proof.Machine
end

