-- ==== Sys2Proof/Machine/Agents.lean ====
section
/-! DEFINITION. What each agent's move does (00_scope.md R7): the SEQ's completion of the latched command, a HOST
access, an ENV step and the block reset. -/

namespace Sys2Proof.Machine

/-- The SEQ's completion step (40_transport.md R105): decode the word latched in `CMD` and run it; a word that is not
well-formed completes with ILLEGAL_COMMAND. -/
def runCommand (s : State) : Host.Outcome State Fault Refusal :=
  match decode s.cmd with
  | .ok i => exec i s
  | .error _ => .next (completeIllegal s)

/-- The SEQ's turn: its completion is enabled exactly when `BUSY` = 1 (R105). -/
def seqTurn (s : State) : Host.Outcome State Fault Refusal := if s.status.busy then runCommand s else .next s

/-- An ENV step `BUS_STATE <- b`, possible only while `BUSY` = 0 (10_state.md R42). -/
def envStep (b : BusState) (s : State) : State := if s.status.busy then s else setBusState b s

/-- The block reset (70_reset_and_hazards.md R230): every register, `STATUS` and `BUSLOG` take their reset values, and
a running command is abandoned. ENV, the agents' further moves, what the HOST has read and the parameters are outside
the block and stay. -/
def blockReset (s : State) : State :=
  { State.reset with env := s.env, agenda := s.agenda, reads := s.reads, cfg := s.cfg }

/-- One move of an agent. -/
def act (a : Action) (s : State) : Host.Outcome State Fault Refusal :=
  match a with
  | .hostRead x => hostAccess x windowRead s
  | .hostWrite x v => hostAccess x (fun off => windowWrite off v) s
  | .complete => seqTurn s
  | .envBusState b => .next (envStep b s)
  | .reset => .next (blockReset s)

end Sys2Proof.Machine
end

