-- ==== Sys2Proof/Machine/Step.lean ====
section
/-! DEFINITION. One step of the machine, and how an instruction is placed where the next step runs it. -/

namespace Sys2Proof.Machine

/-- One step: the first move of the agenda; with none listed, the SEQ's turn, so that an accepted command always
completes (20_memory.md R65) and a quiescent block (00_scope.md R17) waits unchanged. -/
def step (s : State) : Host.Outcome State Fault Refusal :=
  match s.agenda with
  | [] => seqTurn s
  | a :: rest => act a (setAgenda rest s)

/-- `s` with the command word latched in `CMD`, `BUSY` = 1, and the SEQ's completion as the very next move: what a
HOST's write of the word to `CMD` brings about (20_memory.md R65), `OVR` left as it is. -/
def State.withFetchWord (s : State) (nbits w : Nat) : State :=
  { s with cmd := tableWord nbits w, status := { s.status with busy := true }, agenda := .complete :: s.agenda }

end Sys2Proof.Machine
end

