-- ==== Sys2Proof/Safety.lean ====
section
/-! DEFINITION. The terms the statements use: the invariant of a state between two steps, what a bus command may
change, the next states a command's rule gives, and the sequences of events and answers the rules speak of. Nothing
here is part of the machine. -/

namespace Sys2Proof.Machine

/-- The invariant of every state between two steps. -/
structure Inv (s : State) : Prop where
  /-- The parameters are in the ranges of 00_scope.md R9. -/
  cfg_valid : s.cfg.Valid
  /-- `PHASE` = Addressing occurs only inside a START (10_state.md R43, R45). -/
  phase_settled : s.status.phase ≠ .addressing
  /-- STOP and RECOVER clear `DIR` and `RXEND` when they return `PHASE` to Idle (R29, R30). -/
  idle_clears : s.status.phase = .idle → s.status.dir = .write ∧ s.status.rxEnd = false
  /-- A NACK is sent in a read phase only (R30). -/
  rxEnd_in_read : s.status.rxEnd = true → s.status.dir = .read
  /-- `ATTEMPTS` is at most `RETRY_LIMIT` (R34). -/
  attempts_bounded : s.status.attempts.toNat ≤ s.cfg.retryLimit
  /-- A bus failure reported in `RESULT` left `PHASE` = Error and its cause in `LASTERR` (60_exceptions.md R200). -/
  bus_failure_recorded : ∀ c, s.status.result = some (.bus c) → s.status.phase = .error ∧ s.status.lastErr = some c
  /-- Codes 4 and 5 leave `PHASE` = Idle, `ATTEMPTS` = `RETRY_LIMIT` and a cause in `LASTERR` (R200). -/
  exhaustion_recorded : s.status.result = some .accessExhausted ∨ s.status.result = some .calReadFailure →
    s.status.phase = .idle ∧ s.status.attempts.toNat = s.cfg.retryLimit ∧ s.status.lastErr ≠ none
  /-- The calibration store holds its reset value until LOAD_CAL succeeds (10_state.md R38). -/
  store_empty : s.status.calValid = false → s.calT1 = 0 ∧ s.calT2 = 0 ∧ s.calT3 = 0

/-- `t` is `s` but for what the transport procedures and the retry policy write: `BUS_STATE`, `PHASE`, `DIR`, `RXEND`,
`ACK`, `ATTEMPTS`, `LASTERR`, `BUSLOG` and ENV's answers. -/
def OnlyTransport (s t : State) : Prop :=
  t = { s with
        busLog := t.busLog
        env := t.env
        status := { s.status with
                    busState := t.status.busState
                    phase := t.status.phase
                    dir := t.status.dir
                    rxEnd := t.status.rxEnd
                    ack := t.status.ack
                    attempts := t.status.attempts
                    lastErr := t.status.lastErr } }

/-- `t` is `s` but for what `OnlyTransport` lists, and `RESULT` and `BUSY`, which completion writes. -/
def OnlyTransportAndResult (s t : State) : Prop :=
  OnlyTransport s { t with status := { t.status with result := s.status.result, busy := s.status.busy } }

/-- Bus events are only appended (R40, R102). -/
def LogExtends (s t : State) : Prop := ∃ l, t.busLog = s.busLog ++ l

/-! ### The next states the rules give -/

/-- A completion that found its command illegal or out of sequence (60_exceptions.md R201). -/
def failedCheck (f : Failure) (s : State) : State :=
  { s with status := { s.status with result := some f, attempts := 0, lastErr := none, busy := false } }

/-- A primitive command's completion with OK. -/
def endedOk (s : State) : State :=
  { s with status := { s.status with result := none, attempts := 0, lastErr := none, busy := false } }

/-- A primitive command's completion with a bus failure (40_transport.md R103). -/
def endedFailed (c : BusFailure) (s : State) : State :=
  { s with status := { s.status with
                       result := some (.bus c)
                       phase := .error
                       attempts := 0
                       lastErr := some c
                       busy := false } }

/-- A register access's completion: its result, its attempt count and the last bus failure of the command. -/
def endedAccess (r : Option Failure) (n : Nat) (c : Option BusFailure) (s : State) : State :=
  { s with status := { s.status with
                       result := r
                       phase := .idle
                       dir := .write
                       rxEnd := false
                       attempts := BitVec.ofNat 4 n
                       lastErr := c
                       busy := false } }

/-! ### What the HOST reads -/

/-- The register map's read column but for `STATUS` (20_memory.md R61): `v` is what offset `off` reads as, each narrower
register zero- or sign-extended, 0 where nothing is mapped. -/
def ReadsAs (off : Nat) (s : State) (v : Word) : Prop :=
  (off = 0x00 → v = s.cmd) ∧ (off = 0x08 → v.toNat = s.data.toNat) ∧ (off = 0x0C → v.toNat = s.slaveAddr.toNat) ∧
  (off = 0x10 → v.toNat = s.calT1.toNat) ∧ (off = 0x14 → v.toInt = s.calT2.toInt) ∧
  (off = 0x18 → v.toInt = s.calT3.toInt) ∧ (off = 0x1C → v.toNat = s.raw.toNat) ∧
  (off = 0x20 → v.toInt = s.temp.toInt) ∧ (0x24 ≤ off → v = 0)

/-! ### Events of one attempt -/

/-- The events of a successful read attempt (41_register_access.md R142). -/
def readEvents (a : Addr7) (r v : Byte) : List BusEvent :=
  [.startCond, .addrByte (addressByte a .write), .txByte r, .repStart, .addrByte (addressByte a .read), .rxByte v,
    .masterAck false, .stopCond]

/-- The events of a successful write attempt (R143). -/
def writeEvents (a : Addr7) (r x : Byte) : List BusEvent :=
  [.startCond, .addrByte (addressByte a .write), .txByte r, .txByte x, .stopCond]

/-! ### ENV's answers in order -/

/-- ENV after `n` bus-state samples. -/
def busDrawn : Nat → Env → Env
  | 0, e => e
  | n + 1, e => busDrawn n (drawBusState e).2

/-- The answer of bus-state sample `n`, counted from 0. -/
def busSample (n : Nat) (e : Env) : BusState := (drawBusState (busDrawn n e)).1

/-- ENV after `n` polls of a readiness flag. -/
def readyDrawn (k : WaitKind) : Nat → Env → Env
  | 0, e => e
  | n + 1, e => readyDrawn k n (drawReady k e).2

/-- The answer of readiness poll `n`, counted from 0. -/
def readySample (k : WaitKind) (n : Nat) (e : Env) : Bool := (drawReady k (readyDrawn k n e)).1

/-- An ENV that answers at once and well: the next `w` readiness polls 1, the next `k` acknowledge bits ACK, the next
`b` bus-state samples Idle, and the next received bytes `v`. -/
structure WellBehaved (w k b : Nat) (v : List Byte) (e : Env) : Prop where
  ready : ∃ l, e.ready = List.replicate w true ++ l
  acks : ∃ l, e.acks = List.replicate k true ++ l
  bus : ∃ l, e.busStates = List.replicate b .idle ++ l
  bytes : ∃ l, e.rxBytes = v ++ l

/-- ENV after those answers. -/
def consumed (w k b v : Nat) (e : Env) : Env :=
  { e with
    ready := e.ready.drop w
    acks := e.acks.drop k
    busStates := e.busStates.drop b
    rxBytes := e.rxBytes.drop v
    drawn := e.drawn + w + k + b + v }

/-! ### Sequences of register accesses -/

/-- Read sensor registers one after another, each by its own register access, up to the first that is exhausted: the
bytes where all succeed, and the state left. -/
def sensorReads : List Byte → State → Option (List Byte) × State
  | [], s => (some [], s)
  | r :: rest, s =>
    match readSensor r s with
    | (.ok v, t) => ((sensorReads rest t).1.map (v :: ·), (sensorReads rest t).2)
    | (.raised _, t) => (none, t)

/-- A command's start as every completion makes it: `ATTEMPTS` and `LASTERR` cleared (40_transport.md R105). -/
def opened (s : State) : State := { s with status := { s.status with attempts := 0, lastErr := none } }

/-- The first `k` attempts of a register access fail, from `s` to `t`: attempt `n + 1` is run with `ATTEMPTS` set to it
and is followed by a recovery (41_register_access.md R140). -/
def FailedAttempts {α : Type} (once : State → Run α) : Nat → State → State → Prop
  | 0, s, t => t = s
  | k + 1, s, t => ∃ u, FailedAttempts once k s u ∧
      ∃ f x, once (setAttempts (k + 1) u) = (.raised f, x) ∧ t = (recoverProc x).2

/-- The most ENV draws a command takes, with `P` polls and `R` attempts (70_reset_and_hazards.md R244). -/
def drawBound (p r : Nat) : Instr → Nat
  | .start _ _ => p + 2
  | .writeByte _ => p + 1
  | .readByte _ => p + 1
  | .stop => p
  | .recover => 1
  | .readReg _ => r * (5 * p + 6)
  | .writeReg _ _ => r * (4 * p + 5)
  | .loadCal => 5 * r * (5 * p + 6)
  | .readRaw => 3 * r * (5 * p + 6)
  | .calcTemp => 0

/-- A state whose SEQ is about to complete the latched command: `BUSY` = 1, and no other move is listed first. -/
def AboutToComplete (s : State) : Prop :=
  s.status.busy = true ∧ (s.agenda = [] ∨ ∃ rest, s.agenda = .complete :: rest)

/-- The agenda after one step. -/
def laterMoves (s : State) : State := { s with agenda := s.agenda.tail }

end Sys2Proof.Machine
end

