-- ==== Sys2Proof/Certificates/Slice0/Obligations.lean ====
section
/-! DEFINITION. The statements for the provers: what the rules of spec/ say of the block, each over every state. A
statement's docstring names the rule it formalises. ENV's answers are never assumed but where a hypothesis lists them. -/

open Sys2Proof Sys2Proof.Machine

/-! ### Encoding -/

/-- Decoding an encoded command gives it back, every operand at every value (R80 to R85). -/
def Obligations.DecodeOfEncode : Prop := ∀ i : Instr, decode (encode i) = .ok i

/-- Each legal word has one meaning: encoding what it decodes to gives the word back. -/
def Obligations.EncodeOfDecode : Prop := ∀ (w : Word) (i : Instr), decode w = .ok i → encode i = w

/-- R86: the legal words are those of the rule's five lines, decoding accepts exactly them, and any other word completes
with ILLEGAL_COMMAND and no other effect (`ATTEMPTS` and `LASTERR` 0, as at every completion). -/
def Obligations.IllegalWordsCompleteIllegal : Prop :=
  (∀ w : Word, (∃ i, decode w = .ok i) ↔
    ((w.extractLsb' 28 4).toNat ∈ [0x1, 0x2, 0x3, 0x4, 0x5, 0x6, 0x7, 0x8, 0x9, 0xA] ∧
      w.extractLsb' 16 12 = 0 ∧
      ((w.extractLsb' 28 4).toNat ∈ [0x6, 0x7] ∨ w.extractLsb' 8 8 = 0) ∧
      ((w.extractLsb' 28 4).toNat ∉ [0x3] ∨ w.extractLsb' 1 7 = 0) ∧
      ((w.extractLsb' 28 4).toNat ∉ [0x4, 0x5, 0x6, 0x8, 0x9, 0xA] ∨ w.extractLsb' 0 8 = 0))) ∧
    ∀ s : State, AboutToComplete s → (∀ i, decode s.cmd ≠ .ok i) →
      step s = .next (failedCheck .illegalCommand (laterMoves s))

/-- R93: the first matching row of the opcode table names the decoded command's mnemonic, and no row matches exactly the
words that are not well-formed. -/
def Obligations.FirstTableRowAgreesWithDecode : Prop :=
  ∀ w : Word, tableMnemonic w = (decode w).toOption.map Instr.mnemonic ∧
    ((tableMnemonic w).isSome ↔ wellFormed w = true)

/-- R89: the worked encodings, both ways, and its examples of illegal words. -/
def Obligations.WorkedEncodings : Prop :=
  (∀ p ∈ ([(.start 0x76 .write, 0x100000EC), (.start 0x76 .read, 0x100000ED), (.writeByte 0xD0, 0x200000D0),
        (.readByte true, 0x30000001), (.readByte false, 0x30000000), (.stop, 0x40000000), (.recover, 0x50000000),
        (.readReg 0xD0, 0x6000D000), (.writeReg 0xE0 0xB6, 0x7000E0B6), (.loadCal, 0x80000000),
        (.readRaw, 0x90000000), (.calcTemp, 0xA0000000)] : List (Instr × Word)),
      decode p.2 = .ok p.1 ∧ encode p.1 = p.2) ∧
    ∀ w ∈ ([0x00000000, 0x40000001, 0x30000002, 0x100100EC, 0xB0000000] : List Word),
      wellFormed w = false ∧ (decode w).toOption = none

/-! ### The step -/

/-- The SEQ runs the word latched in `CMD` (R105, R106): where it decodes to `i`, the step is `exec i`, the move taken
from the agenda. -/
def Obligations.StepRunsDecodedCommand : Prop :=
  ∀ (s : State) (i : Instr), AboutToComplete s → decode s.cmd = .ok i → step s = exec i (laterMoves s)

/-- A word placed by `withFetchWord` runs at the very next step, the rest of the state as it was. -/
def Obligations.PlacedWordRunsNext : Prop :=
  ∀ (s : State) (w : Nat) (i : Instr), decodeTableWord 32 w = some i →
    step (s.withFetchWord 32 w) =
      exec i { s with cmd := BitVec.ofNat 32 w, status := { s.status with busy := true } }

/-- R105, R205: every command completes from every state, in one step, with `BUSY` = 0; a failure is an ordinary final
value and no fault. Everything outside the block that a command does not consume is as it was. -/
def Obligations.EveryCommandCompletes : Prop :=
  ∀ (i : Instr) (s : State), ∃ t, exec i s = .next t ∧ t.status.busy = false ∧ t.cmd = s.cmd ∧
    t.slaveAddr = s.slaveAddr ∧ t.status.ovr = s.status.ovr ∧ t.agenda = s.agenda ∧ t.reads = s.reads ∧ t.cfg = s.cfg ∧
    t.env.busyReads = s.env.busyReads ∧ LogExtends s t

/-- R42: while `BUSY` = 0, ENV's step sets `BUS_STATE` and nothing else; while `BUSY` = 1 ENV has no such step (its move
passes without effect). -/
def Obligations.EnvStepSetsBusState : Prop :=
  ∀ (s : State) (b : BusState) (rest : List Action), s.agenda = .envBusState b :: rest →
    (s.status.busy = false →
      step s = .next { s with agenda := rest, status := { s.status with busState := b } }) ∧
    (s.status.busy = true → step s = .next { s with agenda := rest })

/-! ### Transport commands -/

/-- R110: START, every outcome. A sequence error where `PHASE` is neither Idle nor DataPhase. From Idle it samples the
bus: a non-Idle sample is BUS_WEDGED with no event. Otherwise, and from DataPhase without a sample, it sends the address
byte `a ++ d`, waits, and samples the acknowledge. Also its encoding. -/
def Obligations.StartOutcomes : Prop :=
  ∀ (a : Addr7) (d : Dir) (s : State),
    encode (.start a d) = 0x1#4 ++ 0#12 ++ 0#8 ++ a ++ (match d with | .write => 0#1 | .read => 1#1) ∧
    (s.status.phase ≠ .idle → s.status.phase ≠ .dataPhase →
      exec (.start a d) s = .next (failedCheck .sequenceError s)) ∧
    (s.status.phase = .idle → (drawBusState s.env).1 ≠ .idle →
      exec (.start a d) s = .next (endedFailed .busWedged
        { s with env := (drawBusState s.env).2
                 status := { s.status with busState := (drawBusState s.env).1 } })) ∧
    ∀ (first : BusEvent) (e : Env) (bs : BusState),
      ((s.status.phase = .idle ∧ (drawBusState s.env).1 = .idle ∧ first = .startCond ∧
          e = (drawBusState s.env).2 ∧ bs = .idle) ∨
        (s.status.phase = .dataPhase ∧ first = .repStart ∧ e = s.env ∧ bs = s.status.busState)) →
      ∃ u : State,
        u = { s with busLog := s.busLog ++ [first, .addrByte (a ++ (match d with | .write => 0#1 | .read => 1#1))]
                     status := { s.status with busState := bs, dir := d, rxEnd := false } } ∧
        ((waitReady .addrDone s.cfg.pollLimit e).1 = false →
          exec (.start a d) s =
            .next (endedFailed .timeout { u with env := (waitReady .addrDone s.cfg.pollLimit e).2 })) ∧
        ((waitReady .addrDone s.cfg.pollLimit e).1 = true →
          ((drawAck (waitReady .addrDone s.cfg.pollLimit e).2).1 = false →
            exec (.start a d) s = .next (endedFailed .noAck
              { u with env := (drawAck (waitReady .addrDone s.cfg.pollLimit e).2).2
                       status := { u.status with ack := false } })) ∧
          ((drawAck (waitReady .addrDone s.cfg.pollLimit e).2).1 = true →
            exec (.start a d) s = .next (endedOk
              { u with env := (drawAck (waitReady .addrDone s.cfg.pollLimit e).2).2
                       status := { u.status with ack := true, phase := .dataPhase } })))

/-- R112: WRITE_BYTE, every outcome, and its encoding. -/
def Obligations.WriteByteOutcomes : Prop :=
  ∀ (b : Byte) (s : State),
    encode (.writeByte b) = 0x2#4 ++ 0#12 ++ 0#8 ++ b ∧
    (¬(s.status.phase = .dataPhase ∧ s.status.dir = .write) →
      exec (.writeByte b) s = .next (failedCheck .sequenceError s)) ∧
    (s.status.phase = .dataPhase → s.status.dir = .write →
      ∃ u : State, u = { s with busLog := s.busLog ++ [.txByte b] } ∧
        ((waitReady .txDone s.cfg.pollLimit s.env).1 = false →
          exec (.writeByte b) s =
            .next (endedFailed .timeout { u with env := (waitReady .txDone s.cfg.pollLimit s.env).2 })) ∧
        ((waitReady .txDone s.cfg.pollLimit s.env).1 = true →
          ((drawAck (waitReady .txDone s.cfg.pollLimit s.env).2).1 = false →
            exec (.writeByte b) s = .next (endedFailed .noAck
              { u with env := (drawAck (waitReady .txDone s.cfg.pollLimit s.env).2).2
                       status := { u.status with ack := false } })) ∧
          ((drawAck (waitReady .txDone s.cfg.pollLimit s.env).2).1 = true →
            exec (.writeByte b) s = .next (endedOk
              { u with env := (drawAck (waitReady .txDone s.cfg.pollLimit s.env).2).2
                       status := { u.status with ack := true } }))))

/-- R116: READ_BYTE, every outcome, and its encoding. `ACK` is not written, `DATA` only on OK, `RXEND` set by a NACK. -/
def Obligations.ReadByteOutcomes : Prop :=
  ∀ (k : Bool) (s : State),
    encode (.readByte k) = 0x3#4 ++ 0#12 ++ 0#8 ++ 0#7 ++ BitVec.ofBool k ∧
    (¬(s.status.phase = .dataPhase ∧ s.status.dir = .read ∧ s.status.rxEnd = false) →
      exec (.readByte k) s = .next (failedCheck .sequenceError s)) ∧
    (s.status.phase = .dataPhase → s.status.dir = .read → s.status.rxEnd = false →
      ((waitReady .rxDone s.cfg.pollLimit s.env).1 = false →
        exec (.readByte k) s =
          .next (endedFailed .timeout { s with env := (waitReady .rxDone s.cfg.pollLimit s.env).2 })) ∧
      ((waitReady .rxDone s.cfg.pollLimit s.env).1 = true →
        ∃ v : Byte, v = (drawRxByte (waitReady .rxDone s.cfg.pollLimit s.env).2).1 ∧
          exec (.readByte k) s = .next (endedOk
            { s with env := (drawRxByte (waitReady .rxDone s.cfg.pollLimit s.env).2).2
                     data := v
                     busLog := s.busLog ++ [.rxByte v, .masterAck k]
                     status := { s.status with rxEnd := !k } })))

/-- R122: STOP, every outcome, and its encoding: it takes bus-state samples until the first Idle, at most `POLL_LIMIT`;
with none it is BUS_WEDGED and `BUS_STATE` holds the last sample. -/
def Obligations.StopOutcomes : Prop :=
  ∀ s : State,
    encode .stop = 0x4#4 ++ 0#28 ∧
    (s.status.phase ≠ .dataPhase → exec .stop s = .next (failedCheck .sequenceError s)) ∧
    (s.status.phase = .dataPhase →
      (∀ n, n < s.cfg.pollLimit → busSample n s.env = .idle → (∀ m, m < n → busSample m s.env ≠ .idle) →
        exec .stop s = .next (endedOk
          { s with env := busDrawn (n + 1) s.env
                   busLog := s.busLog ++ [.stopCond]
                   status := { s.status with busState := .idle, phase := .idle, dir := .write, rxEnd := false } })) ∧
      ((∀ m, m < s.cfg.pollLimit → busSample m s.env ≠ .idle) → 1 ≤ s.cfg.pollLimit →
        exec .stop s = .next (endedFailed .busWedged
          { s with env := busDrawn s.cfg.pollLimit s.env
                   busLog := s.busLog ++ [.stopCond]
                   status := { s.status with busState := busSample (s.cfg.pollLimit - 1) s.env } })))

/-- R130, R131: RECOVER, every outcome, and its encoding: one sample, exactly one forced pair of events if it is not
Idle and no event otherwise, and `BUS_STATE` Idle either way. -/
def Obligations.RecoverOutcomes : Prop :=
  ∀ s : State,
    encode .recover = 0x5#4 ++ 0#28 ∧
    (s.status.phase ≠ .idle → s.status.phase ≠ .error →
      exec .recover s = .next (failedCheck .sequenceError s)) ∧
    (s.status.phase = .idle ∨ s.status.phase = .error →
      exec .recover s = .next (endedOk
        { s with env := (drawBusState s.env).2
                 busLog := s.busLog ++ (if (drawBusState s.env).1 = .idle then [] else [.forcedStop, .forceIdle])
                 status := { s.status with busState := .idle, phase := .idle, dir := .write, rxEnd := false } }))

/-- R123: STOP never completes with TIMEOUT. -/
def Obligations.StopNeverTimesOut : Prop :=
  ∀ s t : State, exec .stop s = .next t → t.status.result ≠ some (.bus .timeout)

/-- R132: once RECOVER passes its legality check it ends in OK with `PHASE` = Idle, having recorded no bus failure and
taken one draw, which is no wait. -/
def Obligations.RecoverNeverFails : Prop :=
  ∀ s : State, s.status.phase = .idle ∨ s.status.phase = .error →
    ∃ t, exec .recover s = .next t ∧ t.status.result = none ∧ t.status.phase = .idle ∧ t.status.lastErr = none ∧
      t.env.drawn = s.env.drawn + 1 ∧ t.env.ready = s.env.ready

/-- R113: a STOP right after a START that completed OK passes its legality check, and completes OK in Idle where the
bus samples Idle. -/
def Obligations.ZeroByteTransactionIsLegal : Prop :=
  ∀ (a : Addr7) (d : Dir) (s t : State), exec (.start a d) s = .next t → t.status.result = none →
    ∃ u, exec .stop t = .next u ∧ u.status.result ≠ some .sequenceError ∧
      ((drawBusState t.env).1 = .idle → 1 ≤ s.cfg.pollLimit → u.status.result = none ∧ u.status.phase = .idle)

/-- R117: READ_BYTE sends no stop condition, whatever it is asked to acknowledge; with a NACK it ends the read phase, so
that a further READ_BYTE is a sequence error. -/
def Obligations.NackEndsReadPhaseWithoutStop : Prop :=
  ∀ (k : Bool) (s t : State), exec (.readByte k) s = .next t →
    (∃ l, t.busLog = s.busLog ++ l ∧ BusEvent.stopCond ∉ l ∧ BusEvent.forcedStop ∉ l) ∧
    (k = false → t.status.result = none →
      t.status.phase = .dataPhase ∧ t.status.rxEnd = true ∧
        ∀ j, exec (.readByte j) t = .next (failedCheck .sequenceError t))

/-- R100: a bounded wait is Ready exactly when one of its `POLL_LIMIT` polls is answered 1, having taken the polls up to
the first such one and no other draw; else it is Expired after `POLL_LIMIT` polls. It writes no register and emits no
event. -/
def Obligations.BoundedWaitPollsUpToFirstReady : Prop :=
  ∀ (k : WaitKind) (s : State),
    (∀ n, n < s.cfg.pollLimit → readySample k n s.env = true → (∀ m, m < n → readySample k m s.env = false) →
      waitFor k s = (true, { s with env := readyDrawn k (n + 1) s.env })) ∧
    ((∀ m, m < s.cfg.pollLimit → readySample k m s.env = false) →
      waitFor k s = (false, { s with env := readyDrawn k s.cfg.pollLimit s.env })) ∧
    (waitFor k s).2.env.drawn ≤ s.env.drawn + s.cfg.pollLimit

/-- R242: a primitive that completes with NO_ACK, TIMEOUT or BUS_WEDGED leaves `PHASE` = Error, and there every START,
WRITE_BYTE, READ_BYTE, STOP and composite completes SEQUENCE_ERROR, leaving `PHASE` = Error, until a RECOVER. -/
def Obligations.FailedPrimitiveBlocksUntilRecover : Prop :=
  (∀ (i : Instr) (s t : State) (c : BusFailure),
      exec i s = .next t → t.status.result = some (.bus c) → t.status.phase = .error) ∧
    ∀ s : State, s.status.phase = .error →
      (∀ i : Instr, i ≠ .recover → i ≠ .calcTemp →
        exec i s = .next (failedCheck .sequenceError s) ∧ (failedCheck .sequenceError s).status.phase = .error) ∧
      ∃ t, exec .recover s = .next t ∧ t.status.phase = .idle

/-- R201 for the checks of `PHASE`, `DIR` and `RXEND`: a command whose completion is SEQUENCE_ERROR has written only
`RESULT`, `ATTEMPTS` = 0, `LASTERR` = 0 and `BUSY` = 0; so for CAL_LOCKED and NOT_CALIBRATED, and no command reports
ILLEGAL_COMMAND of a decoded word. -/
def Obligations.FailedCheckChangesNothingElse : Prop :=
  ∀ (i : Instr) (s t : State), exec i s = .next t →
    (∀ f, f = .sequenceError ∨ f = .calLocked ∨ f = .notCalibrated → t.status.result = some f → t = failedCheck f s) ∧
    t.status.result ≠ some .illegalCommand

/-! ### Register access commands -/

/-- R145: with `PHASE` other than Idle, every composite completes with SEQUENCE_ERROR and has no other effect. -/
def Obligations.CompositesNeedIdle : Prop :=
  ∀ s : State, s.status.phase ≠ .idle →
    ∀ i : Instr, (∃ r, i = .readReg r) ∨ (∃ r x, i = .writeReg r x) ∨ i = .loadCal ∨ i = .readRaw →
      exec i s = .next (failedCheck .sequenceError s)

/-- R142, R146: READ_REG with an ENV that answers well at once: one attempt, the eight events, `DATA` the byte received,
and nothing else written but what the rule lists. -/
def Obligations.ReadRegReadsByte : Prop :=
  ∀ (r v : Byte) (s : State), s.status.phase = .idle → 1 ≤ s.cfg.pollLimit → 1 ≤ s.cfg.retryLimit →
    WellBehaved 4 3 2 [v] s.env →
    exec (.readReg r) s = .next (endedAccess none 1 none
      { s with env := consumed 4 3 2 1 s.env
               data := v
               busLog := s.busLog ++
                [.startCond, .addrByte (s.slaveAddr ++ 0#1), .txByte r, .repStart, .addrByte (s.slaveAddr ++ 1#1),
                  .rxByte v, .masterAck false, .stopCond]
               status := { s.status with busState := .idle, ack := true } })

/-- R143, R148: WRITE_REG with an ENV that answers well at once: one attempt, the five events, `DATA` not written. -/
def Obligations.WriteRegWritesByte : Prop :=
  ∀ (r x : Byte) (s : State), s.status.phase = .idle → 1 ≤ s.cfg.pollLimit → 1 ≤ s.cfg.retryLimit →
    WellBehaved 3 3 2 [] s.env →
    exec (.writeReg r x) s = .next (endedAccess none 1 none
      { s with env := consumed 3 3 2 0 s.env
               busLog := s.busLog ++
                [.startCond, .addrByte (s.slaveAddr ++ 0#1), .txByte r, .txByte x, .stopCond]
               status := { s.status with busState := .idle, ack := true } })

/-- R146, R147: READ_REG from Idle, whatever ENV answers: it ends in Idle; on OK `DATA` is the byte of the last attempt,
whose eight events this command appends last; else the result is ACCESS_EXHAUSTED after `RETRY_LIMIT` attempts, `DATA` is unchanged and
`LASTERR` holds a cause. Nothing else is written but what the rule lists. -/
def Obligations.ReadRegOutcomes : Prop :=
  ∀ (r : Byte) (s : State), s.status.phase = .idle → s.cfg.Valid →
    ∃ t, exec (.readReg r) s = .next t ∧ OnlyTransportAndResult s { t with data := s.data } ∧
      t.status.phase = .idle ∧ t.status.dir = .write ∧ t.status.rxEnd = false ∧ LogExtends s t ∧
      ((t.status.result = none ∧ 1 ≤ t.status.attempts.toNat ∧ t.status.attempts.toNat ≤ s.cfg.retryLimit ∧
          t.status.ack = true ∧ ∃ l, t.busLog = s.busLog ++ l ++ readEvents s.slaveAddr r t.data) ∨
        (t.status.result = some .accessExhausted ∧ t.data = s.data ∧
          t.status.attempts.toNat = s.cfg.retryLimit ∧ t.status.lastErr ≠ none))

/-- R140, R143, R148: WRITE_REG from Idle, whatever ENV answers: it ends in Idle; on OK the five events of the last
attempt are appended last; else the result is ACCESS_EXHAUSTED after `RETRY_LIMIT` attempts and `LASTERR` holds a cause.
`DATA` is never written. -/
def Obligations.WriteRegOutcomes : Prop :=
  ∀ (r x : Byte) (s : State), s.status.phase = .idle → s.cfg.Valid →
    ∃ t, exec (.writeReg r x) s = .next t ∧ OnlyTransportAndResult s t ∧
      t.status.phase = .idle ∧ t.status.dir = .write ∧ t.status.rxEnd = false ∧ LogExtends s t ∧
      ((t.status.result = none ∧ 1 ≤ t.status.attempts.toNat ∧ t.status.attempts.toNat ≤ s.cfg.retryLimit ∧
          t.status.ack = true ∧ ∃ l, t.busLog = s.busLog ++ l ++ writeEvents s.slaveAddr r x) ∨
        (t.status.result = some .accessExhausted ∧
          t.status.attempts.toNat = s.cfg.retryLimit ∧ t.status.lastErr ≠ none))

/-- R149: if the first N − 1 attempts fail and attempt N = `RETRY_LIMIT` succeeds, READ_REG and WRITE_REG complete OK
with `ATTEMPTS` = N; if all N fail, they complete ACCESS_EXHAUSTED with `ATTEMPTS` = N. -/
def Obligations.RetryBound : Prop :=
  ∀ (s : State) (n : Nat), s.status.phase = .idle → s.cfg.Valid → s.cfg.retryLimit = n + 1 →
    (∀ (r v : Byte) (u x : State), FailedAttempts (readOnce r) n (opened s) u →
      readOnce r (setAttempts (n + 1) u) = (.ok v, x) →
      ∃ t, exec (.readReg r) s = .next t ∧ t.status.result = none ∧ t.status.attempts.toNat = n + 1 ∧ t.data = v) ∧
    (∀ (r : Byte) (u : State), FailedAttempts (readOnce r) (n + 1) (opened s) u →
      ∃ t, exec (.readReg r) s = .next t ∧ t.status.result = some .accessExhausted ∧
        t.status.attempts.toNat = n + 1) ∧
    (∀ (r y : Byte) (u x : State), FailedAttempts (writeOnce r y) n (opened s) u →
      writeOnce r y (setAttempts (n + 1) u) = (.ok (), x) →
      ∃ t, exec (.writeReg r y) s = .next t ∧ t.status.result = none ∧ t.status.attempts.toNat = n + 1) ∧
    (∀ (r y : Byte) (u : State), FailedAttempts (writeOnce r y) (n + 1) (opened s) u →
      ∃ t, exec (.writeReg r y) s = .next t ∧ t.status.result = some .accessExhausted ∧
        t.status.attempts.toNat = n + 1)

/-- R150: `BUS_STATE` samples Busy at READ_REG's first START and at that attempt's recovery, and Idle afterwards: the
command emits one forced pair and then the eight events of a successful attempt, and completes OK with `ATTEMPTS` = 2 and
`LASTERR` = BUS_WEDGED. -/
def Obligations.RecoveryBeforeRetry : Prop :=
  ∀ (r v : Byte) (s : State) (rest : List BusState),
    s.status.phase = .idle → 1 ≤ s.cfg.pollLimit → 2 ≤ s.cfg.retryLimit → s.cfg.retryLimit ≤ 15 →
    s.env.busStates = .busy :: .busy :: .idle :: .idle :: rest →
    (∃ l, s.env.ready = List.replicate 4 true ++ l) → (∃ l, s.env.acks = List.replicate 3 true ++ l) →
    (∃ l, s.env.rxBytes = v :: l) →
    exec (.readReg r) s = .next (endedAccess none 2 (some .busWedged)
      { s with env := consumed 4 3 4 1 s.env
               data := v
               busLog := s.busLog ++ [.forcedStop, .forceIdle] ++ readEvents s.slaveAddr r v
               status := { s.status with busState := .idle, ack := true } })

/-! ### Calibration, raw sample and compensation -/

/-- R161 to R163: LOAD_CAL with an ENV that answers well at once: five reads in the rule's order, one attempt each, and
the commit of T1, T2, T3 and `CAL_VALID`. -/
def Obligations.LoadCalCommitsCoefficients : Prop :=
  ∀ (b0 b1 b2 b3 b4 : Byte) (s : State), s.status.phase = .idle → s.status.calValid = false →
    1 ≤ s.cfg.pollLimit → 1 ≤ s.cfg.retryLimit → WellBehaved 20 15 10 [b0, b1, b2, b3, b4] s.env →
    ∃ t, exec .loadCal s = .next t ∧
      t = endedAccess none 1 none
        { s with env := consumed 20 15 10 5 s.env
                 calT1 := b1 ++ b0
                 calT2 := b3 ++ b2
                 calT3 := b4
                 busLog := s.busLog ++ readEvents s.slaveAddr (BitVec.ofNat 8 s.cfg.calT1Reg) b0 ++
                  readEvents s.slaveAddr (BitVec.ofNat 8 (s.cfg.calT1Reg + 1)) b1 ++
                  readEvents s.slaveAddr (BitVec.ofNat 8 s.cfg.calT2Reg) b2 ++
                  readEvents s.slaveAddr (BitVec.ofNat 8 (s.cfg.calT2Reg + 1)) b3 ++
                  readEvents s.slaveAddr s.cfg.calT3Reg b4
                 status := { s.status with busState := .idle, ack := true, calValid := true } } ∧
      t.calT1.toNat = b1.toNat * 256 + b0.toNat ∧
      t.calT2.toInt = (b3.toNat * 256 + b2.toNat : Int) - (if b3.toNat < 128 then 0 else 65536) ∧
      t.calT3.toInt = (b4.toNat : Int) - (if b4.toNat < 128 then 0 else 256)

/-- R161, R163, R164: LOAD_CAL, legal, whatever ENV answers: it reads the five registers in order up to the first that is
exhausted. Where all succeed it commits the three coefficients and `CAL_VALID`; else the store is exactly as it was and
the result is CAL_READ_FAILURE. -/
def Obligations.LoadCalCommitsAllOrNothing : Prop :=
  ∀ s : State, s.status.phase = .idle → s.status.calValid = false → s.cfg.Valid →
    ∃ r : Option (List Byte) × State,
      r = sensorReads [BitVec.ofNat 8 s.cfg.calT1Reg, BitVec.ofNat 8 (s.cfg.calT1Reg + 1),
        BitVec.ofNat 8 s.cfg.calT2Reg, BitVec.ofNat 8 (s.cfg.calT2Reg + 1), s.cfg.calT3Reg] (opened s) ∧
      (r.1 = none →
        exec .loadCal s =
          .next { r.2 with status := { r.2.status with result := some .calReadFailure, busy := false } } ∧
        r.2.calT1 = s.calT1 ∧ r.2.calT2 = s.calT2 ∧ r.2.calT3 = s.calT3 ∧ r.2.status.calValid = false ∧
        r.2.data = s.data ∧ r.2.status.lastErr ≠ none ∧ r.2.status.attempts.toNat = s.cfg.retryLimit) ∧
      (∀ vs, r.1 = some vs → ∃ b0 b1 b2 b3 b4, vs = [b0, b1, b2, b3, b4] ∧
        exec .loadCal s =
          .next { r.2 with calT1 := b1 ++ b0
                           calT2 := b3 ++ b2
                           calT3 := b4
                           status := { r.2.status with result := none, calValid := true, busy := false } })

/-- R165: LOAD_CAL with `CAL_VALID` = 1 and `PHASE` = Idle completes with CAL_LOCKED: no bus access, no other register.
Only a block reset clears `CAL_VALID`. -/
def Obligations.SecondLoadCalIsLocked : Prop :=
  (∀ s : State, s.status.phase = .idle → s.status.calValid = true →
    exec .loadCal s = .next (failedCheck .calLocked s)) ∧
  ∀ s t : State, s.status.calValid = true → step s = .next t → t.status.calValid = false →
    ∃ rest, s.agenda = .reset :: rest

/-- R32, R38: once `CAL_VALID` is 1, no step but a block reset changes it or a coefficient. -/
def Obligations.CalibrationIsImmutable : Prop :=
  ∀ s t : State, s.status.calValid = true → (∀ rest, s.agenda ≠ .reset :: rest) → step s = .next t →
    t.status.calValid = true ∧ t.calT1 = s.calT1 ∧ t.calT2 = s.calT2 ∧ t.calT3 = s.calT3

/-- R182, R183: READ_RAW from Idle, whatever ENV answers: it reads the three registers in order up to the first that is
exhausted. Where all succeed, `RAW` is their assembly; else `RAW` is as it was and the result is ACCESS_EXHAUSTED. -/
def Obligations.ReadRawCommitsAllOrNothing : Prop :=
  ∀ s : State, s.status.phase = .idle → s.cfg.Valid →
    ∃ r : Option (List Byte) × State,
      r = sensorReads [BitVec.ofNat 8 s.cfg.adcReg, BitVec.ofNat 8 (s.cfg.adcReg + 1),
        BitVec.ofNat 8 (s.cfg.adcReg + 2)] (opened s) ∧
      (r.1 = none →
        exec .readRaw s =
          .next { r.2 with status := { r.2.status with result := some .accessExhausted, busy := false } } ∧
        r.2.raw = s.raw ∧ r.2.data = s.data ∧ r.2.status.lastErr ≠ none ∧
        r.2.status.attempts.toNat = s.cfg.retryLimit) ∧
      (∀ vs, r.1 = some vs → ∃ m l x, vs = [m, l, x] ∧
        exec .readRaw s =
          .next { r.2 with raw := rawAssemble m l x
                           status := { r.2.status with result := none, busy := false } })

/-- R182: READ_RAW with an ENV that answers well at once: three reads, one attempt each, and `RAW` the 20-bit value. -/
def Obligations.ReadRawAssemblesSample : Prop :=
  ∀ (m l x : Byte) (s : State), s.status.phase = .idle → 1 ≤ s.cfg.pollLimit → 1 ≤ s.cfg.retryLimit →
    WellBehaved 12 9 6 [m, l, x] s.env →
    exec .readRaw s = .next (endedAccess none 1 none
      { s with env := consumed 12 9 6 3 s.env
               raw := BitVec.ofNat 20 (m.toNat * 4096 + l.toNat * 16 + x.toNat / 16)
               busLog := s.busLog ++ readEvents s.slaveAddr (BitVec.ofNat 8 s.cfg.adcReg) m ++
                readEvents s.slaveAddr (BitVec.ofNat 8 (s.cfg.adcReg + 1)) l ++
                readEvents s.slaveAddr (BitVec.ofNat 8 (s.cfg.adcReg + 2)) x
               status := { s.status with busState := .idle, ack := true } })

/-- R180: the assembled sample is `(msb << 12) | (lsb << 4) | (xlsb >> 4)`. -/
def Obligations.RawSampleAssembly : Prop :=
  ∀ msb lsb xlsb : Byte,
    (rawAssemble msb lsb xlsb).toNat = (msb.toNat <<< 12) ||| (lsb.toNat <<< 4) ||| (xlsb.toNat >>> 4)

/-- R181: `|` is `+` in the assembly, the low nibble of XLSB is discarded, the range, and the example. -/
def Obligations.RawSampleProperties : Prop :=
  (∀ m l x : Byte,
    (rawAssemble m l x).toNat = m.toNat * 4096 + l.toNat * 16 + x.toNat / 16 ∧
    (rawAssemble m l x).toNat ≤ 1048575 ∧
    ∀ y : Byte, x.toNat / 16 = y.toNat / 16 → rawAssemble m l x = rawAssemble m l y) ∧
  (rawAssemble 0x66 0x66 0x60).toNat = 419430

/-- R184, R185, R188, R189: CALC_TEMP, every outcome, in any `PHASE`, and its encoding. With `CAL_VALID` = 1, `TEMP` is
the low 16 bits of the formula with `>>` as floor division, `TEMP_OVF` says whether it fits, and nothing else is
written; with `CAL_VALID` = 0 it completes with NOT_CALIBRATED and changes nothing else. -/
def Obligations.CalcTempComputesFormula : Prop :=
  ∀ s : State,
    encode .calcTemp = 0xA#4 ++ 0#28 ∧
    (s.status.calValid = false → exec .calcTemp s = .next (failedCheck .notCalibrated s)) ∧
    (s.status.calValid = true →
      ∃ var1 var2 sq var3 t : Int,
        var1 = Int.fdiv s.raw.toNat 8 - s.calT1.toNat * 2 ∧
        var2 = Int.fdiv (var1 * s.calT2.toInt) 2048 ∧
        sq = Int.fdiv (Int.fdiv var1 2 * Int.fdiv var1 2) 4096 ∧
        var3 = Int.fdiv (sq * (s.calT3.toInt * 16)) 16384 ∧
        t = Int.fdiv ((var2 + var3) * 5 + 128) 256 ∧
        exec .calcTemp s = .next (endedOk
          { s with temp := BitVec.ofInt 16 t
                   status := { s.status with tempOvf := decide (t < -32768 ∨ t > 32767) } }))

/-- R33, R189, R243: after a CALC_TEMP that passes its check, `TEMP` read as signed is the exact value just where
`TEMP_OVF` = 0. -/
def Obligations.TempIsExactUnlessOverflow : Prop :=
  ∀ s t : State, exec .calcTemp s = .next t → t.status.result = none →
    (t.status.tempOvf = false ↔ t.temp.toInt = compensateRegs s.raw s.calT1 s.calT2 s.calT3)

/-- R186: the bounds of the intermediates over the whole input domain, and that each is reached. -/
def Obligations.CompensationBounds : Prop :=
  (∀ (raw : BitVec 20) (t1 t2 : BitVec 16) (t3 : BitVec 8),
    ∃ v : Int, v = compVar1 raw.toNat t1.toNat ∧
      -131070 ≤ v ∧ v ≤ 131071 ∧
      |v * t2.toInt| ≤ 4294934528 ∧
      shr v 1 * shr v 1 ≤ 4294836225 ∧
      |compSquare v * shl t3.toInt 4| ≤ 2147418112 ∧
      |compTFine raw.toNat t1.toNat t2.toInt t3.toInt| ≤ 2228204 ∧
      -43520 ≤ compensateRegs raw t1 t2 t3 ∧ compensateRegs raw t1 t2 t3 ≤ 43499) ∧
  compVar1 0 65535 = -131070 ∧ compVar1 1048575 0 = 131071 ∧ (131071 * -32768 : Int) = -4294934528 ∧
  shr (-131070) 1 * shr (-131070) 1 = 4294836225 ∧ compSquare 131071 * shl (-128) 4 = -2147418112 ∧
  compTFine 1048575 0 (-32768) (-128) = -2228204 ∧
  compensate 1048575 0 (-32768) (-128) = -43520 ∧ compensate 0 65535 (-32768) 127 = 43499

/-- R191: the two identities of `Compensate`. -/
def Obligations.CompensationIdentities : Prop :=
  (∀ raw t1 : Int, shr (compVar1 raw t1) 1 = shr raw 4 - t1) ∧
    ∀ v t3 : Int, shr (v * shl t3 4) 14 = shr (v * t3) 10

/-- R187: `Compensate` depends on its four arguments alone: two CALC_TEMPs in states that agree on `RAW`, the
coefficients and `CAL_VALID` leave the same `TEMP` and `TEMP_OVF` if they pass the check, whatever else differs; and a
second CALC_TEMP gives the same again. -/
def Obligations.CompensationIsPure : Prop :=
  ∀ s t s' t' : State, exec .calcTemp s = .next s' → exec .calcTemp t = .next t' → s.status.calValid = true →
    (t.status.calValid = true → s.raw = t.raw → s.calT1 = t.calT1 → s.calT2 = t.calT2 → s.calT3 = t.calT3 →
      s'.temp = t'.temp ∧ s'.status.tempOvf = t'.status.tempOvf) ∧
    exec .calcTemp s' = .next s' ∧ s'.env = s.env ∧ s'.busLog = s.busLog

/-! ### The host window -/

/-- R61, R63: a HOST read of a whole aligned word while `BUSY` = 0 appends to what the HOST has read the value of the
map's read column, and changes nothing else. -/
def Obligations.HostReadReturnsRegister : Prop :=
  ∀ (s : State) (off : Nat) (rest : List Action), off < 0x40 → off % 4 = 0 → s.status.busy = false →
    s.agenda = .hostRead ⟨.thread, s.cfg.blockBase + off, 4⟩ :: rest →
    ∃ v : Word, step s = .next { s with agenda := rest, reads := s.reads ++ [v] } ∧
      (off = 0x04 → v = statusWord s.status) ∧ ReadsAs off s v

/-- R64: a HOST write of a whole aligned word, every offset, `BUSY` = 0 and 1. -/
def Obligations.HostWriteEffects : Prop :=
  ∀ (s : State) (off : Nat) (v : Word) (rest : List Action), off < 0x40 → off % 4 = 0 →
    s.agenda = .hostWrite ⟨.thread, s.cfg.blockBase + off, 4⟩ v :: rest →
    ∃ t, step s = .next t ∧
      (s.status.busy = false →
        (off = 0x00 → t = { s with agenda := rest, cmd := v, status := { s.status with busy := true, ovr := false } }) ∧
        (off = 0x0C → t = { s with agenda := rest, slaveAddr := BitVec.ofNat 7 v.toNat }) ∧
        (off = 0x1C → t = { s with agenda := rest, raw := BitVec.ofNat 20 v.toNat })) ∧
      (s.status.busy = true → off = 0x00 ∨ off = 0x0C ∨ off = 0x1C →
        t = { s with agenda := rest, status := { s.status with ovr := true } }) ∧
      (off ≠ 0x00 → off ≠ 0x0C → off ≠ 0x1C → t = { s with agenda := rest })

/-- R28: a write to `CMD`, `SLAVE_ADDR` or `RAW` while `BUSY` = 1 sets `OVR`, an accept clears it, and no other step
changes it, a block reset apart. -/
def Obligations.OverrunFlagRecordsDroppedWrites : Prop :=
  ∀ s t : State, step s = .next t →
    (∀ a v rest, s.agenda = .hostWrite a v :: rest →
      (s.status.busy = true →
        a.addr = s.cfg.blockBase ∨ a.addr = s.cfg.blockBase + 0x0C ∨ a.addr = s.cfg.blockBase + 0x1C →
        t.status.ovr = true) ∧
      (s.status.busy = false → a.addr = s.cfg.blockBase → t.status.ovr = false)) ∧
    (t.status.ovr ≠ s.status.ovr →
      (∃ rest, s.agenda = .reset :: rest) ∨
      ∃ a v rest, s.agenda = .hostWrite a v :: rest ∧
        ((s.status.busy = true ∧
            (a.addr = s.cfg.blockBase ∨ a.addr = s.cfg.blockBase + 0x0C ∨ a.addr = s.cfg.blockBase + 0x1C)) ∨
          (s.status.busy = false ∧ a.addr = s.cfg.blockBase)))

/-- R67: while `BUSY` = 1, a HOST read changes no register and returns every register as the map's column
gives it, and every `STATUS` field but `BUS_STATE` as it stands; `BUS_STATE` reads as ENV's answer: 0, 1 or 2. -/
def Obligations.BusyReadsReturnHeldValues : Prop :=
  ∀ (s : State) (off : Nat) (rest : List Action), off < 0x40 → off % 4 = 0 → s.status.busy = true →
    s.agenda = .hostRead ⟨.thread, s.cfg.blockBase + off, 4⟩ :: rest →
    (off ≠ 0x04 → ∃ v : Word, step s = .next { s with agenda := rest, reads := s.reads ++ [v] } ∧ ReadsAs off s v) ∧
    (off = 0x04 → ∃ w : Word, step s =
        .next { s with agenda := rest, reads := s.reads ++ [w], env := (drawBusyRead s.env).2 } ∧
      w.getLsbD 8 = true ∧ w.getLsbD 9 = s.status.ovr ∧
      (w.extractLsb' 4 2).toNat = (match (drawBusyRead s.env).1 with | .idle => 0 | .busy => 1 | .error => 2) ∧
      ∀ n, n ≠ 4 → n ≠ 5 → w.getLsbD n = (statusWord s.status).getLsbD n)

/-- R66, R76: while `BUSY` = 1, no move but the completion and a block reset changes any register other than `OVR`; in
particular `CMD`, `SLAVE_ADDR` and `RAW` reach the completion as they were at accept. Of ENV only the answers of busy reads
move; that a busy read is not counted in `drawn` is the model's choice (assumption 9). -/
def Obligations.BusyFreezesRegisters : Prop :=
  ∀ s t : State, s.status.busy = true → step s = .next t →
    s.agenda ≠ [] → (∀ rest, s.agenda ≠ .complete :: rest ∧ s.agenda ≠ .reset :: rest) →
    ∃ l b e, t = { s with agenda := s.agenda.tail
                          reads := s.reads ++ l
                          env := e
                          status := { s.status with ovr := b } } ∧
      e.ready = s.env.ready ∧ e.acks = s.env.acks ∧ e.rxBytes = s.env.rxBytes ∧ e.busStates = s.env.busStates ∧
      e.drawn = s.env.drawn ∧ (s.status.ovr = true → b = true)

/-- R68, and the access from an interrupt handler of R241: an access to the window that is not 4 bytes wide at an offset
that is a multiple of 4 is refused, and so is any access by a handler; each by its own name. Which name comes first, and an access
of width 0, are the model's choices (assumptions 7 and 20). -/
def Obligations.UndefinedAccessesAreRefused : Prop :=
  ∀ (s : State) (a : Access) (v : Word) (rest : List Action),
    s.agenda = .hostRead a :: rest ∨ s.agenda = .hostWrite a v :: rest →
    s.cfg.blockBase ≤ a.addr → a.addr < s.cfg.blockBase + 0x40 →
    (a.origin = .handler → step s = .refused .handlerAccess) ∧
    (a.origin = .thread → (a.width ≠ 4 ∨ (a.addr - s.cfg.blockBase) % 4 ≠ 0) →
      step s = .refused .subWordOrMisaligned)

/-- R23, R25, R26, R35, R36: the layout of `STATUS` as read, the codes of `BUS_STATE`, `PHASE` and `LASTERR`, and the
reserved bits. `RESULT`'s codes are ResultCodesAsRead's. -/
def Obligations.StatusLayout : Prop :=
  ∀ st : Status,
    (statusWord st).extractLsb' 0 4 = resultCode st.result ∧
    ((statusWord st).extractLsb' 4 2).toNat = (match st.busState with | .idle => 0 | .busy => 1 | .error => 2) ∧
    ((statusWord st).extractLsb' 6 2).toNat =
      (match st.phase with | .idle => 0 | .addressing => 1 | .dataPhase => 2 | .error => 3) ∧
    (statusWord st).getLsbD 8 = st.busy ∧ (statusWord st).getLsbD 9 = st.ovr ∧
    ((statusWord st).getLsbD 10 = true ↔ st.dir = .read) ∧
    (statusWord st).getLsbD 11 = st.rxEnd ∧ (statusWord st).getLsbD 12 = st.ack ∧
    (statusWord st).getLsbD 13 = st.calValid ∧ (statusWord st).getLsbD 14 = st.tempOvf ∧
    (statusWord st).getLsbD 15 = false ∧
    (statusWord st).extractLsb' 16 4 = st.attempts ∧
    ((statusWord st).extractLsb' 20 2).toNat =
      (match st.lastErr with | none => 0 | some .noAck => 1 | some .timeout => 2 | some .busWedged => 3) ∧
    (statusWord st).extractLsb' 22 10 = 0

/-- R200: the result codes as the HOST reads them in `STATUS.RESULT`: each named failure has its code, OK is 0, and the
codes 10–15 never appear. -/
def Obligations.ResultCodesAsRead : Prop :=
  (∀ st : Status, ((statusWord st).extractLsb' 0 4).toNat ≤ 9 ∧
      (((statusWord st).extractLsb' 0 4).toNat = 0 ↔ st.result = none)) ∧
    ([none, some (.bus .noAck), some (.bus .timeout), some (.bus .busWedged), some .accessExhausted,
        some .calReadFailure, some .sequenceError, some .notCalibrated, some .calLocked, some .illegalCommand].map
      fun r => (resultCode r).toNat) = [0, 1, 2, 3, 4, 5, 6, 7, 8, 9]

/-! ### Reset, invariants and bounds -/

/-- R46: every piece of the block's state at reset. -/
def Obligations.ResetValues : Prop :=
  ∃ s : State, s = State.reset ∧ s.cmd = 0 ∧ s.data = 0 ∧ s.slaveAddr = 0 ∧ s.calT1 = 0 ∧ s.calT2 = 0 ∧ s.calT3 = 0 ∧
    s.raw = 0 ∧ s.temp = 0 ∧ statusWord s.status = 0 ∧ s.status.result = none ∧ s.status.busState = .idle ∧
    s.status.phase = .idle ∧ s.status.busy = false ∧ s.status.ovr = false ∧ s.status.dir = .write ∧
    s.status.rxEnd = false ∧ s.status.ack = false ∧ s.status.calValid = false ∧ s.status.tempOvf = false ∧
    s.status.attempts = 0 ∧ s.status.lastErr = none ∧ s.busLog = []

/-- R230: a block reset at any time, a command in execution or not, sets every register, `STATUS` and `BUSLOG` to the
reset values and takes no draw. That ENV, the remaining moves, what the HOST has read and the parameters stay is the
model's choice (assumption 5). -/
def Obligations.BlockResetRestoresResetState : Prop :=
  ∀ (s : State) (rest : List Action), s.agenda = .reset :: rest →
    step s = .next { State.reset with env := s.env, agenda := rest, reads := s.reads, cfg := s.cfg }

/-- The reset state meets the invariant. -/
def Obligations.ResetMeetsInv : Prop := Inv State.reset

/-- Every step keeps the invariant (R26, R29, R30, R34, R38, R43, R45, R200): from any state that meets it, whatever
the agents do. -/
def Obligations.StepKeepsInv : Prop := ∀ s t : State, Inv s → step s = .next t → Inv t

/-- R45: a composite that passes its legality check starts in Idle and completes in Idle, whatever its result. -/
def Obligations.CompositesEndIdle : Prop :=
  ∀ (i : Instr) (s t : State), (∃ r, i = .readReg r) ∨ (∃ r x, i = .writeReg r x) ∨ i = .loadCal ∨ i = .readRaw →
    exec i s = .next t → t.status.result ≠ some .sequenceError → s.status.phase = .idle ∧ t.status.phase = .idle

/-- R44, for the primitive commands: the transitions of `PHASE` from one completion to the next are exactly those of the
rule's table (Addressing is passed inside a START), and CALC_TEMP makes none. -/
def Obligations.PhaseTransitions : Prop :=
  ∀ (i : Instr) (s t : State), exec i s = .next t → s.status.phase ≠ .addressing →
    (t.status.phase = s.status.phase ∨
      ((∃ a d, i = .start a d) ∧ (s.status.phase = .idle ∨ s.status.phase = .dataPhase) ∧
        (t.status.phase = .dataPhase ∨ t.status.phase = .error)) ∨
      (((∃ b, i = .writeByte b) ∨ ∃ k, i = .readByte k) ∧ s.status.phase = .dataPhase ∧ t.status.phase = .error) ∨
      (i = .stop ∧ s.status.phase = .dataPhase ∧ (t.status.phase = .idle ∨ t.status.phase = .error)) ∨
      (i = .recover ∧ s.status.phase = .error ∧ t.status.phase = .idle))

/-- R20's "written by" column, for the commands: each register is changed only by its commands, `DATA`, `RAW`, `TEMP`
and the store only where the command completes OK; `ACK` is not changed by the commands that receive no acknowledge. -/
def Obligations.RegistersHaveOnlyTheirWriters : Prop :=
  ∀ (i : Instr) (s t : State), exec i s = .next t →
    (t.data ≠ s.data → t.status.result = none ∧ ((∃ k, i = .readByte k) ∨ ∃ r, i = .readReg r)) ∧
    (t.raw ≠ s.raw → t.status.result = none ∧ i = .readRaw) ∧
    (t.temp ≠ s.temp ∨ t.status.tempOvf ≠ s.status.tempOvf → t.status.result = none ∧ i = .calcTemp) ∧
    (t.calT1 ≠ s.calT1 ∨ t.calT2 ≠ s.calT2 ∨ t.calT3 ≠ s.calT3 ∨ t.status.calValid ≠ s.status.calValid →
      t.status.result = none ∧ i = .loadCal) ∧
    (t.status.ack ≠ s.status.ack → (∀ k, i ≠ .readByte k) ∧ i ≠ .stop ∧ i ≠ .recover ∧ i ≠ .calcTemp)

/-- The parameters of R9 never change, and `BUSLOG` only grows but at a block reset (R40, R102). -/
def Obligations.ParametersFixedAndLogGrows : Prop :=
  ∀ s t : State, step s = .next t → t.cfg = s.cfg ∧ ((∀ rest, s.agenda ≠ .reset :: rest) → LogExtends s t)

/-- R244: the most ENV draws each command takes, and none for a failed legality check or an illegal word. -/
def Obligations.DrawsAreBounded : Prop :=
  (∀ (i : Instr) (s t : State), s.cfg.Valid → exec i s = .next t →
    s.env.drawn ≤ t.env.drawn ∧ t.env.drawn ≤ s.env.drawn + drawBound s.cfg.pollLimit s.cfg.retryLimit i ∧
    (∀ f, f = .sequenceError ∨ f = .calLocked ∨ f = .notCalibrated → t.status.result = some f →
      t.env.drawn = s.env.drawn)) ∧
  (∀ s t : State, AboutToComplete s → wellFormed s.cmd = false → step s = .next t → t.env = s.env) ∧
  drawBound 1000 3 (.readReg 0) = 15018 ∧ drawBound 1000 3 (.writeReg 0 0) = 12015 ∧
  drawBound 1000 3 .loadCal = 75090 ∧ drawBound 1000 3 .readRaw = 45054
end

