-- ==== Sys2Proof/Laws/State.lean ====
section
/-! SUPPORT. One lemma per field per update of the state: what each named update of Machine/Ops.lean writes and what
it leaves. True by rfl and tagged for simp, so that no later proof unfolds an update. -/

namespace Sys2Proof.Machine

@[simp] theorem setCmd_cmd (w : Word) (s : State) : (setCmd w s).cmd = w := rfl
@[simp] theorem setCmd_status (w : Word) (s : State) : (setCmd w s).status = s.status := rfl
@[simp] theorem setCmd_data (w : Word) (s : State) : (setCmd w s).data = s.data := rfl
@[simp] theorem setCmd_slaveAddr (w : Word) (s : State) : (setCmd w s).slaveAddr = s.slaveAddr := rfl
@[simp] theorem setCmd_calT1 (w : Word) (s : State) : (setCmd w s).calT1 = s.calT1 := rfl
@[simp] theorem setCmd_calT2 (w : Word) (s : State) : (setCmd w s).calT2 = s.calT2 := rfl
@[simp] theorem setCmd_calT3 (w : Word) (s : State) : (setCmd w s).calT3 = s.calT3 := rfl
@[simp] theorem setCmd_raw (w : Word) (s : State) : (setCmd w s).raw = s.raw := rfl
@[simp] theorem setCmd_temp (w : Word) (s : State) : (setCmd w s).temp = s.temp := rfl
@[simp] theorem setCmd_busLog (w : Word) (s : State) : (setCmd w s).busLog = s.busLog := rfl
@[simp] theorem setCmd_env (w : Word) (s : State) : (setCmd w s).env = s.env := rfl
@[simp] theorem setCmd_agenda (w : Word) (s : State) : (setCmd w s).agenda = s.agenda := rfl
@[simp] theorem setCmd_reads (w : Word) (s : State) : (setCmd w s).reads = s.reads := rfl
@[simp] theorem setCmd_cfg (w : Word) (s : State) : (setCmd w s).cfg = s.cfg := rfl

@[simp] theorem setData_cmd (b : Byte) (s : State) : (setData b s).cmd = s.cmd := rfl
@[simp] theorem setData_status (b : Byte) (s : State) : (setData b s).status = s.status := rfl
@[simp] theorem setData_data (b : Byte) (s : State) : (setData b s).data = b := rfl
@[simp] theorem setData_slaveAddr (b : Byte) (s : State) : (setData b s).slaveAddr = s.slaveAddr := rfl
@[simp] theorem setData_calT1 (b : Byte) (s : State) : (setData b s).calT1 = s.calT1 := rfl
@[simp] theorem setData_calT2 (b : Byte) (s : State) : (setData b s).calT2 = s.calT2 := rfl
@[simp] theorem setData_calT3 (b : Byte) (s : State) : (setData b s).calT3 = s.calT3 := rfl
@[simp] theorem setData_raw (b : Byte) (s : State) : (setData b s).raw = s.raw := rfl
@[simp] theorem setData_temp (b : Byte) (s : State) : (setData b s).temp = s.temp := rfl
@[simp] theorem setData_busLog (b : Byte) (s : State) : (setData b s).busLog = s.busLog := rfl
@[simp] theorem setData_env (b : Byte) (s : State) : (setData b s).env = s.env := rfl
@[simp] theorem setData_agenda (b : Byte) (s : State) : (setData b s).agenda = s.agenda := rfl
@[simp] theorem setData_reads (b : Byte) (s : State) : (setData b s).reads = s.reads := rfl
@[simp] theorem setData_cfg (b : Byte) (s : State) : (setData b s).cfg = s.cfg := rfl

@[simp] theorem setSlaveAddr_cmd (a : Addr7) (s : State) : (setSlaveAddr a s).cmd = s.cmd := rfl
@[simp] theorem setSlaveAddr_status (a : Addr7) (s : State) : (setSlaveAddr a s).status = s.status := rfl
@[simp] theorem setSlaveAddr_data (a : Addr7) (s : State) : (setSlaveAddr a s).data = s.data := rfl
@[simp] theorem setSlaveAddr_slaveAddr (a : Addr7) (s : State) : (setSlaveAddr a s).slaveAddr = a := rfl
@[simp] theorem setSlaveAddr_calT1 (a : Addr7) (s : State) : (setSlaveAddr a s).calT1 = s.calT1 := rfl
@[simp] theorem setSlaveAddr_calT2 (a : Addr7) (s : State) : (setSlaveAddr a s).calT2 = s.calT2 := rfl
@[simp] theorem setSlaveAddr_calT3 (a : Addr7) (s : State) : (setSlaveAddr a s).calT3 = s.calT3 := rfl
@[simp] theorem setSlaveAddr_raw (a : Addr7) (s : State) : (setSlaveAddr a s).raw = s.raw := rfl
@[simp] theorem setSlaveAddr_temp (a : Addr7) (s : State) : (setSlaveAddr a s).temp = s.temp := rfl
@[simp] theorem setSlaveAddr_busLog (a : Addr7) (s : State) : (setSlaveAddr a s).busLog = s.busLog := rfl
@[simp] theorem setSlaveAddr_env (a : Addr7) (s : State) : (setSlaveAddr a s).env = s.env := rfl
@[simp] theorem setSlaveAddr_agenda (a : Addr7) (s : State) : (setSlaveAddr a s).agenda = s.agenda := rfl
@[simp] theorem setSlaveAddr_reads (a : Addr7) (s : State) : (setSlaveAddr a s).reads = s.reads := rfl
@[simp] theorem setSlaveAddr_cfg (a : Addr7) (s : State) : (setSlaveAddr a s).cfg = s.cfg := rfl

@[simp] theorem setRaw_cmd (r : BitVec 20) (s : State) : (setRaw r s).cmd = s.cmd := rfl
@[simp] theorem setRaw_status (r : BitVec 20) (s : State) : (setRaw r s).status = s.status := rfl
@[simp] theorem setRaw_data (r : BitVec 20) (s : State) : (setRaw r s).data = s.data := rfl
@[simp] theorem setRaw_slaveAddr (r : BitVec 20) (s : State) : (setRaw r s).slaveAddr = s.slaveAddr := rfl
@[simp] theorem setRaw_calT1 (r : BitVec 20) (s : State) : (setRaw r s).calT1 = s.calT1 := rfl
@[simp] theorem setRaw_calT2 (r : BitVec 20) (s : State) : (setRaw r s).calT2 = s.calT2 := rfl
@[simp] theorem setRaw_calT3 (r : BitVec 20) (s : State) : (setRaw r s).calT3 = s.calT3 := rfl
@[simp] theorem setRaw_raw (r : BitVec 20) (s : State) : (setRaw r s).raw = r := rfl
@[simp] theorem setRaw_temp (r : BitVec 20) (s : State) : (setRaw r s).temp = s.temp := rfl
@[simp] theorem setRaw_busLog (r : BitVec 20) (s : State) : (setRaw r s).busLog = s.busLog := rfl
@[simp] theorem setRaw_env (r : BitVec 20) (s : State) : (setRaw r s).env = s.env := rfl
@[simp] theorem setRaw_agenda (r : BitVec 20) (s : State) : (setRaw r s).agenda = s.agenda := rfl
@[simp] theorem setRaw_reads (r : BitVec 20) (s : State) : (setRaw r s).reads = s.reads := rfl
@[simp] theorem setRaw_cfg (r : BitVec 20) (s : State) : (setRaw r s).cfg = s.cfg := rfl

@[simp] theorem setTemp_cmd (t : BitVec 16) (s : State) : (setTemp t s).cmd = s.cmd := rfl
@[simp] theorem setTemp_status (t : BitVec 16) (s : State) : (setTemp t s).status = s.status := rfl
@[simp] theorem setTemp_data (t : BitVec 16) (s : State) : (setTemp t s).data = s.data := rfl
@[simp] theorem setTemp_slaveAddr (t : BitVec 16) (s : State) : (setTemp t s).slaveAddr = s.slaveAddr := rfl
@[simp] theorem setTemp_calT1 (t : BitVec 16) (s : State) : (setTemp t s).calT1 = s.calT1 := rfl
@[simp] theorem setTemp_calT2 (t : BitVec 16) (s : State) : (setTemp t s).calT2 = s.calT2 := rfl
@[simp] theorem setTemp_calT3 (t : BitVec 16) (s : State) : (setTemp t s).calT3 = s.calT3 := rfl
@[simp] theorem setTemp_raw (t : BitVec 16) (s : State) : (setTemp t s).raw = s.raw := rfl
@[simp] theorem setTemp_temp (t : BitVec 16) (s : State) : (setTemp t s).temp = t := rfl
@[simp] theorem setTemp_busLog (t : BitVec 16) (s : State) : (setTemp t s).busLog = s.busLog := rfl
@[simp] theorem setTemp_env (t : BitVec 16) (s : State) : (setTemp t s).env = s.env := rfl
@[simp] theorem setTemp_agenda (t : BitVec 16) (s : State) : (setTemp t s).agenda = s.agenda := rfl
@[simp] theorem setTemp_reads (t : BitVec 16) (s : State) : (setTemp t s).reads = s.reads := rfl
@[simp] theorem setTemp_cfg (t : BitVec 16) (s : State) : (setTemp t s).cfg = s.cfg := rfl

@[simp] theorem setEnv_cmd (e : Env) (s : State) : (setEnv e s).cmd = s.cmd := rfl
@[simp] theorem setEnv_status (e : Env) (s : State) : (setEnv e s).status = s.status := rfl
@[simp] theorem setEnv_data (e : Env) (s : State) : (setEnv e s).data = s.data := rfl
@[simp] theorem setEnv_slaveAddr (e : Env) (s : State) : (setEnv e s).slaveAddr = s.slaveAddr := rfl
@[simp] theorem setEnv_calT1 (e : Env) (s : State) : (setEnv e s).calT1 = s.calT1 := rfl
@[simp] theorem setEnv_calT2 (e : Env) (s : State) : (setEnv e s).calT2 = s.calT2 := rfl
@[simp] theorem setEnv_calT3 (e : Env) (s : State) : (setEnv e s).calT3 = s.calT3 := rfl
@[simp] theorem setEnv_raw (e : Env) (s : State) : (setEnv e s).raw = s.raw := rfl
@[simp] theorem setEnv_temp (e : Env) (s : State) : (setEnv e s).temp = s.temp := rfl
@[simp] theorem setEnv_busLog (e : Env) (s : State) : (setEnv e s).busLog = s.busLog := rfl
@[simp] theorem setEnv_env (e : Env) (s : State) : (setEnv e s).env = e := rfl
@[simp] theorem setEnv_agenda (e : Env) (s : State) : (setEnv e s).agenda = s.agenda := rfl
@[simp] theorem setEnv_reads (e : Env) (s : State) : (setEnv e s).reads = s.reads := rfl
@[simp] theorem setEnv_cfg (e : Env) (s : State) : (setEnv e s).cfg = s.cfg := rfl

@[simp] theorem setAgenda_cmd (l : List Action) (s : State) : (setAgenda l s).cmd = s.cmd := rfl
@[simp] theorem setAgenda_status (l : List Action) (s : State) : (setAgenda l s).status = s.status := rfl
@[simp] theorem setAgenda_data (l : List Action) (s : State) : (setAgenda l s).data = s.data := rfl
@[simp] theorem setAgenda_slaveAddr (l : List Action) (s : State) : (setAgenda l s).slaveAddr = s.slaveAddr := rfl
@[simp] theorem setAgenda_calT1 (l : List Action) (s : State) : (setAgenda l s).calT1 = s.calT1 := rfl
@[simp] theorem setAgenda_calT2 (l : List Action) (s : State) : (setAgenda l s).calT2 = s.calT2 := rfl
@[simp] theorem setAgenda_calT3 (l : List Action) (s : State) : (setAgenda l s).calT3 = s.calT3 := rfl
@[simp] theorem setAgenda_raw (l : List Action) (s : State) : (setAgenda l s).raw = s.raw := rfl
@[simp] theorem setAgenda_temp (l : List Action) (s : State) : (setAgenda l s).temp = s.temp := rfl
@[simp] theorem setAgenda_busLog (l : List Action) (s : State) : (setAgenda l s).busLog = s.busLog := rfl
@[simp] theorem setAgenda_env (l : List Action) (s : State) : (setAgenda l s).env = s.env := rfl
@[simp] theorem setAgenda_agenda (l : List Action) (s : State) : (setAgenda l s).agenda = l := rfl
@[simp] theorem setAgenda_reads (l : List Action) (s : State) : (setAgenda l s).reads = s.reads := rfl
@[simp] theorem setAgenda_cfg (l : List Action) (s : State) : (setAgenda l s).cfg = s.cfg := rfl

@[simp] theorem emit_cmd (e : BusEvent) (s : State) : (emit e s).cmd = s.cmd := rfl
@[simp] theorem emit_status (e : BusEvent) (s : State) : (emit e s).status = s.status := rfl
@[simp] theorem emit_data (e : BusEvent) (s : State) : (emit e s).data = s.data := rfl
@[simp] theorem emit_slaveAddr (e : BusEvent) (s : State) : (emit e s).slaveAddr = s.slaveAddr := rfl
@[simp] theorem emit_calT1 (e : BusEvent) (s : State) : (emit e s).calT1 = s.calT1 := rfl
@[simp] theorem emit_calT2 (e : BusEvent) (s : State) : (emit e s).calT2 = s.calT2 := rfl
@[simp] theorem emit_calT3 (e : BusEvent) (s : State) : (emit e s).calT3 = s.calT3 := rfl
@[simp] theorem emit_raw (e : BusEvent) (s : State) : (emit e s).raw = s.raw := rfl
@[simp] theorem emit_temp (e : BusEvent) (s : State) : (emit e s).temp = s.temp := rfl
@[simp] theorem emit_busLog (e : BusEvent) (s : State) : (emit e s).busLog = s.busLog ++ [e] := rfl
@[simp] theorem emit_env (e : BusEvent) (s : State) : (emit e s).env = s.env := rfl
@[simp] theorem emit_agenda (e : BusEvent) (s : State) : (emit e s).agenda = s.agenda := rfl
@[simp] theorem emit_reads (e : BusEvent) (s : State) : (emit e s).reads = s.reads := rfl
@[simp] theorem emit_cfg (e : BusEvent) (s : State) : (emit e s).cfg = s.cfg := rfl

@[simp] theorem logRead_cmd (v : Word) (s : State) : (logRead v s).cmd = s.cmd := rfl
@[simp] theorem logRead_status (v : Word) (s : State) : (logRead v s).status = s.status := rfl
@[simp] theorem logRead_data (v : Word) (s : State) : (logRead v s).data = s.data := rfl
@[simp] theorem logRead_slaveAddr (v : Word) (s : State) : (logRead v s).slaveAddr = s.slaveAddr := rfl
@[simp] theorem logRead_calT1 (v : Word) (s : State) : (logRead v s).calT1 = s.calT1 := rfl
@[simp] theorem logRead_calT2 (v : Word) (s : State) : (logRead v s).calT2 = s.calT2 := rfl
@[simp] theorem logRead_calT3 (v : Word) (s : State) : (logRead v s).calT3 = s.calT3 := rfl
@[simp] theorem logRead_raw (v : Word) (s : State) : (logRead v s).raw = s.raw := rfl
@[simp] theorem logRead_temp (v : Word) (s : State) : (logRead v s).temp = s.temp := rfl
@[simp] theorem logRead_busLog (v : Word) (s : State) : (logRead v s).busLog = s.busLog := rfl
@[simp] theorem logRead_env (v : Word) (s : State) : (logRead v s).env = s.env := rfl
@[simp] theorem logRead_agenda (v : Word) (s : State) : (logRead v s).agenda = s.agenda := rfl
@[simp] theorem logRead_reads (v : Word) (s : State) : (logRead v s).reads = s.reads ++ [v] := rfl
@[simp] theorem logRead_cfg (v : Word) (s : State) : (logRead v s).cfg = s.cfg := rfl

@[simp] theorem setResult_cmd (r : Option Failure) (s : State) : (setResult r s).cmd = s.cmd := rfl
@[simp] theorem setResult_status (r : Option Failure) (s : State) : (setResult r s).status = { s.status with result := r } := rfl
@[simp] theorem setResult_data (r : Option Failure) (s : State) : (setResult r s).data = s.data := rfl
@[simp] theorem setResult_slaveAddr (r : Option Failure) (s : State) : (setResult r s).slaveAddr = s.slaveAddr := rfl
@[simp] theorem setResult_calT1 (r : Option Failure) (s : State) : (setResult r s).calT1 = s.calT1 := rfl
@[simp] theorem setResult_calT2 (r : Option Failure) (s : State) : (setResult r s).calT2 = s.calT2 := rfl
@[simp] theorem setResult_calT3 (r : Option Failure) (s : State) : (setResult r s).calT3 = s.calT3 := rfl
@[simp] theorem setResult_raw (r : Option Failure) (s : State) : (setResult r s).raw = s.raw := rfl
@[simp] theorem setResult_temp (r : Option Failure) (s : State) : (setResult r s).temp = s.temp := rfl
@[simp] theorem setResult_busLog (r : Option Failure) (s : State) : (setResult r s).busLog = s.busLog := rfl
@[simp] theorem setResult_env (r : Option Failure) (s : State) : (setResult r s).env = s.env := rfl
@[simp] theorem setResult_agenda (r : Option Failure) (s : State) : (setResult r s).agenda = s.agenda := rfl
@[simp] theorem setResult_reads (r : Option Failure) (s : State) : (setResult r s).reads = s.reads := rfl
@[simp] theorem setResult_cfg (r : Option Failure) (s : State) : (setResult r s).cfg = s.cfg := rfl

@[simp] theorem setBusState_cmd (b : BusState) (s : State) : (setBusState b s).cmd = s.cmd := rfl
@[simp] theorem setBusState_status (b : BusState) (s : State) : (setBusState b s).status = { s.status with busState := b } := rfl
@[simp] theorem setBusState_data (b : BusState) (s : State) : (setBusState b s).data = s.data := rfl
@[simp] theorem setBusState_slaveAddr (b : BusState) (s : State) : (setBusState b s).slaveAddr = s.slaveAddr := rfl
@[simp] theorem setBusState_calT1 (b : BusState) (s : State) : (setBusState b s).calT1 = s.calT1 := rfl
@[simp] theorem setBusState_calT2 (b : BusState) (s : State) : (setBusState b s).calT2 = s.calT2 := rfl
@[simp] theorem setBusState_calT3 (b : BusState) (s : State) : (setBusState b s).calT3 = s.calT3 := rfl
@[simp] theorem setBusState_raw (b : BusState) (s : State) : (setBusState b s).raw = s.raw := rfl
@[simp] theorem setBusState_temp (b : BusState) (s : State) : (setBusState b s).temp = s.temp := rfl
@[simp] theorem setBusState_busLog (b : BusState) (s : State) : (setBusState b s).busLog = s.busLog := rfl
@[simp] theorem setBusState_env (b : BusState) (s : State) : (setBusState b s).env = s.env := rfl
@[simp] theorem setBusState_agenda (b : BusState) (s : State) : (setBusState b s).agenda = s.agenda := rfl
@[simp] theorem setBusState_reads (b : BusState) (s : State) : (setBusState b s).reads = s.reads := rfl
@[simp] theorem setBusState_cfg (b : BusState) (s : State) : (setBusState b s).cfg = s.cfg := rfl

@[simp] theorem setPhase_cmd (p : Phase) (s : State) : (setPhase p s).cmd = s.cmd := rfl
@[simp] theorem setPhase_status (p : Phase) (s : State) : (setPhase p s).status = { s.status with phase := p } := rfl
@[simp] theorem setPhase_data (p : Phase) (s : State) : (setPhase p s).data = s.data := rfl
@[simp] theorem setPhase_slaveAddr (p : Phase) (s : State) : (setPhase p s).slaveAddr = s.slaveAddr := rfl
@[simp] theorem setPhase_calT1 (p : Phase) (s : State) : (setPhase p s).calT1 = s.calT1 := rfl
@[simp] theorem setPhase_calT2 (p : Phase) (s : State) : (setPhase p s).calT2 = s.calT2 := rfl
@[simp] theorem setPhase_calT3 (p : Phase) (s : State) : (setPhase p s).calT3 = s.calT3 := rfl
@[simp] theorem setPhase_raw (p : Phase) (s : State) : (setPhase p s).raw = s.raw := rfl
@[simp] theorem setPhase_temp (p : Phase) (s : State) : (setPhase p s).temp = s.temp := rfl
@[simp] theorem setPhase_busLog (p : Phase) (s : State) : (setPhase p s).busLog = s.busLog := rfl
@[simp] theorem setPhase_env (p : Phase) (s : State) : (setPhase p s).env = s.env := rfl
@[simp] theorem setPhase_agenda (p : Phase) (s : State) : (setPhase p s).agenda = s.agenda := rfl
@[simp] theorem setPhase_reads (p : Phase) (s : State) : (setPhase p s).reads = s.reads := rfl
@[simp] theorem setPhase_cfg (p : Phase) (s : State) : (setPhase p s).cfg = s.cfg := rfl

@[simp] theorem setBusy_cmd (b : Bool) (s : State) : (setBusy b s).cmd = s.cmd := rfl
@[simp] theorem setBusy_status (b : Bool) (s : State) : (setBusy b s).status = { s.status with busy := b } := rfl
@[simp] theorem setBusy_data (b : Bool) (s : State) : (setBusy b s).data = s.data := rfl
@[simp] theorem setBusy_slaveAddr (b : Bool) (s : State) : (setBusy b s).slaveAddr = s.slaveAddr := rfl
@[simp] theorem setBusy_calT1 (b : Bool) (s : State) : (setBusy b s).calT1 = s.calT1 := rfl
@[simp] theorem setBusy_calT2 (b : Bool) (s : State) : (setBusy b s).calT2 = s.calT2 := rfl
@[simp] theorem setBusy_calT3 (b : Bool) (s : State) : (setBusy b s).calT3 = s.calT3 := rfl
@[simp] theorem setBusy_raw (b : Bool) (s : State) : (setBusy b s).raw = s.raw := rfl
@[simp] theorem setBusy_temp (b : Bool) (s : State) : (setBusy b s).temp = s.temp := rfl
@[simp] theorem setBusy_busLog (b : Bool) (s : State) : (setBusy b s).busLog = s.busLog := rfl
@[simp] theorem setBusy_env (b : Bool) (s : State) : (setBusy b s).env = s.env := rfl
@[simp] theorem setBusy_agenda (b : Bool) (s : State) : (setBusy b s).agenda = s.agenda := rfl
@[simp] theorem setBusy_reads (b : Bool) (s : State) : (setBusy b s).reads = s.reads := rfl
@[simp] theorem setBusy_cfg (b : Bool) (s : State) : (setBusy b s).cfg = s.cfg := rfl

@[simp] theorem setOvr_cmd (b : Bool) (s : State) : (setOvr b s).cmd = s.cmd := rfl
@[simp] theorem setOvr_status (b : Bool) (s : State) : (setOvr b s).status = { s.status with ovr := b } := rfl
@[simp] theorem setOvr_data (b : Bool) (s : State) : (setOvr b s).data = s.data := rfl
@[simp] theorem setOvr_slaveAddr (b : Bool) (s : State) : (setOvr b s).slaveAddr = s.slaveAddr := rfl
@[simp] theorem setOvr_calT1 (b : Bool) (s : State) : (setOvr b s).calT1 = s.calT1 := rfl
@[simp] theorem setOvr_calT2 (b : Bool) (s : State) : (setOvr b s).calT2 = s.calT2 := rfl
@[simp] theorem setOvr_calT3 (b : Bool) (s : State) : (setOvr b s).calT3 = s.calT3 := rfl
@[simp] theorem setOvr_raw (b : Bool) (s : State) : (setOvr b s).raw = s.raw := rfl
@[simp] theorem setOvr_temp (b : Bool) (s : State) : (setOvr b s).temp = s.temp := rfl
@[simp] theorem setOvr_busLog (b : Bool) (s : State) : (setOvr b s).busLog = s.busLog := rfl
@[simp] theorem setOvr_env (b : Bool) (s : State) : (setOvr b s).env = s.env := rfl
@[simp] theorem setOvr_agenda (b : Bool) (s : State) : (setOvr b s).agenda = s.agenda := rfl
@[simp] theorem setOvr_reads (b : Bool) (s : State) : (setOvr b s).reads = s.reads := rfl
@[simp] theorem setOvr_cfg (b : Bool) (s : State) : (setOvr b s).cfg = s.cfg := rfl

@[simp] theorem setDir_cmd (d : Dir) (s : State) : (setDir d s).cmd = s.cmd := rfl
@[simp] theorem setDir_status (d : Dir) (s : State) : (setDir d s).status = { s.status with dir := d } := rfl
@[simp] theorem setDir_data (d : Dir) (s : State) : (setDir d s).data = s.data := rfl
@[simp] theorem setDir_slaveAddr (d : Dir) (s : State) : (setDir d s).slaveAddr = s.slaveAddr := rfl
@[simp] theorem setDir_calT1 (d : Dir) (s : State) : (setDir d s).calT1 = s.calT1 := rfl
@[simp] theorem setDir_calT2 (d : Dir) (s : State) : (setDir d s).calT2 = s.calT2 := rfl
@[simp] theorem setDir_calT3 (d : Dir) (s : State) : (setDir d s).calT3 = s.calT3 := rfl
@[simp] theorem setDir_raw (d : Dir) (s : State) : (setDir d s).raw = s.raw := rfl
@[simp] theorem setDir_temp (d : Dir) (s : State) : (setDir d s).temp = s.temp := rfl
@[simp] theorem setDir_busLog (d : Dir) (s : State) : (setDir d s).busLog = s.busLog := rfl
@[simp] theorem setDir_env (d : Dir) (s : State) : (setDir d s).env = s.env := rfl
@[simp] theorem setDir_agenda (d : Dir) (s : State) : (setDir d s).agenda = s.agenda := rfl
@[simp] theorem setDir_reads (d : Dir) (s : State) : (setDir d s).reads = s.reads := rfl
@[simp] theorem setDir_cfg (d : Dir) (s : State) : (setDir d s).cfg = s.cfg := rfl

@[simp] theorem setRxEnd_cmd (b : Bool) (s : State) : (setRxEnd b s).cmd = s.cmd := rfl
@[simp] theorem setRxEnd_status (b : Bool) (s : State) : (setRxEnd b s).status = { s.status with rxEnd := b } := rfl
@[simp] theorem setRxEnd_data (b : Bool) (s : State) : (setRxEnd b s).data = s.data := rfl
@[simp] theorem setRxEnd_slaveAddr (b : Bool) (s : State) : (setRxEnd b s).slaveAddr = s.slaveAddr := rfl
@[simp] theorem setRxEnd_calT1 (b : Bool) (s : State) : (setRxEnd b s).calT1 = s.calT1 := rfl
@[simp] theorem setRxEnd_calT2 (b : Bool) (s : State) : (setRxEnd b s).calT2 = s.calT2 := rfl
@[simp] theorem setRxEnd_calT3 (b : Bool) (s : State) : (setRxEnd b s).calT3 = s.calT3 := rfl
@[simp] theorem setRxEnd_raw (b : Bool) (s : State) : (setRxEnd b s).raw = s.raw := rfl
@[simp] theorem setRxEnd_temp (b : Bool) (s : State) : (setRxEnd b s).temp = s.temp := rfl
@[simp] theorem setRxEnd_busLog (b : Bool) (s : State) : (setRxEnd b s).busLog = s.busLog := rfl
@[simp] theorem setRxEnd_env (b : Bool) (s : State) : (setRxEnd b s).env = s.env := rfl
@[simp] theorem setRxEnd_agenda (b : Bool) (s : State) : (setRxEnd b s).agenda = s.agenda := rfl
@[simp] theorem setRxEnd_reads (b : Bool) (s : State) : (setRxEnd b s).reads = s.reads := rfl
@[simp] theorem setRxEnd_cfg (b : Bool) (s : State) : (setRxEnd b s).cfg = s.cfg := rfl

@[simp] theorem setAck_cmd (b : Bool) (s : State) : (setAck b s).cmd = s.cmd := rfl
@[simp] theorem setAck_status (b : Bool) (s : State) : (setAck b s).status = { s.status with ack := b } := rfl
@[simp] theorem setAck_data (b : Bool) (s : State) : (setAck b s).data = s.data := rfl
@[simp] theorem setAck_slaveAddr (b : Bool) (s : State) : (setAck b s).slaveAddr = s.slaveAddr := rfl
@[simp] theorem setAck_calT1 (b : Bool) (s : State) : (setAck b s).calT1 = s.calT1 := rfl
@[simp] theorem setAck_calT2 (b : Bool) (s : State) : (setAck b s).calT2 = s.calT2 := rfl
@[simp] theorem setAck_calT3 (b : Bool) (s : State) : (setAck b s).calT3 = s.calT3 := rfl
@[simp] theorem setAck_raw (b : Bool) (s : State) : (setAck b s).raw = s.raw := rfl
@[simp] theorem setAck_temp (b : Bool) (s : State) : (setAck b s).temp = s.temp := rfl
@[simp] theorem setAck_busLog (b : Bool) (s : State) : (setAck b s).busLog = s.busLog := rfl
@[simp] theorem setAck_env (b : Bool) (s : State) : (setAck b s).env = s.env := rfl
@[simp] theorem setAck_agenda (b : Bool) (s : State) : (setAck b s).agenda = s.agenda := rfl
@[simp] theorem setAck_reads (b : Bool) (s : State) : (setAck b s).reads = s.reads := rfl
@[simp] theorem setAck_cfg (b : Bool) (s : State) : (setAck b s).cfg = s.cfg := rfl

@[simp] theorem setTempOvf_cmd (b : Bool) (s : State) : (setTempOvf b s).cmd = s.cmd := rfl
@[simp] theorem setTempOvf_status (b : Bool) (s : State) : (setTempOvf b s).status = { s.status with tempOvf := b } := rfl
@[simp] theorem setTempOvf_data (b : Bool) (s : State) : (setTempOvf b s).data = s.data := rfl
@[simp] theorem setTempOvf_slaveAddr (b : Bool) (s : State) : (setTempOvf b s).slaveAddr = s.slaveAddr := rfl
@[simp] theorem setTempOvf_calT1 (b : Bool) (s : State) : (setTempOvf b s).calT1 = s.calT1 := rfl
@[simp] theorem setTempOvf_calT2 (b : Bool) (s : State) : (setTempOvf b s).calT2 = s.calT2 := rfl
@[simp] theorem setTempOvf_calT3 (b : Bool) (s : State) : (setTempOvf b s).calT3 = s.calT3 := rfl
@[simp] theorem setTempOvf_raw (b : Bool) (s : State) : (setTempOvf b s).raw = s.raw := rfl
@[simp] theorem setTempOvf_temp (b : Bool) (s : State) : (setTempOvf b s).temp = s.temp := rfl
@[simp] theorem setTempOvf_busLog (b : Bool) (s : State) : (setTempOvf b s).busLog = s.busLog := rfl
@[simp] theorem setTempOvf_env (b : Bool) (s : State) : (setTempOvf b s).env = s.env := rfl
@[simp] theorem setTempOvf_agenda (b : Bool) (s : State) : (setTempOvf b s).agenda = s.agenda := rfl
@[simp] theorem setTempOvf_reads (b : Bool) (s : State) : (setTempOvf b s).reads = s.reads := rfl
@[simp] theorem setTempOvf_cfg (b : Bool) (s : State) : (setTempOvf b s).cfg = s.cfg := rfl

@[simp] theorem setAttempts_cmd (n : Nat) (s : State) : (setAttempts n s).cmd = s.cmd := rfl
@[simp] theorem setAttempts_status (n : Nat) (s : State) : (setAttempts n s).status = { s.status with attempts := BitVec.ofNat 4 n } := rfl
@[simp] theorem setAttempts_data (n : Nat) (s : State) : (setAttempts n s).data = s.data := rfl
@[simp] theorem setAttempts_slaveAddr (n : Nat) (s : State) : (setAttempts n s).slaveAddr = s.slaveAddr := rfl
@[simp] theorem setAttempts_calT1 (n : Nat) (s : State) : (setAttempts n s).calT1 = s.calT1 := rfl
@[simp] theorem setAttempts_calT2 (n : Nat) (s : State) : (setAttempts n s).calT2 = s.calT2 := rfl
@[simp] theorem setAttempts_calT3 (n : Nat) (s : State) : (setAttempts n s).calT3 = s.calT3 := rfl
@[simp] theorem setAttempts_raw (n : Nat) (s : State) : (setAttempts n s).raw = s.raw := rfl
@[simp] theorem setAttempts_temp (n : Nat) (s : State) : (setAttempts n s).temp = s.temp := rfl
@[simp] theorem setAttempts_busLog (n : Nat) (s : State) : (setAttempts n s).busLog = s.busLog := rfl
@[simp] theorem setAttempts_env (n : Nat) (s : State) : (setAttempts n s).env = s.env := rfl
@[simp] theorem setAttempts_agenda (n : Nat) (s : State) : (setAttempts n s).agenda = s.agenda := rfl
@[simp] theorem setAttempts_reads (n : Nat) (s : State) : (setAttempts n s).reads = s.reads := rfl
@[simp] theorem setAttempts_cfg (n : Nat) (s : State) : (setAttempts n s).cfg = s.cfg := rfl

@[simp] theorem setLastErr_cmd (c : Option BusFailure) (s : State) : (setLastErr c s).cmd = s.cmd := rfl
@[simp] theorem setLastErr_status (c : Option BusFailure) (s : State) : (setLastErr c s).status = { s.status with lastErr := c } := rfl
@[simp] theorem setLastErr_data (c : Option BusFailure) (s : State) : (setLastErr c s).data = s.data := rfl
@[simp] theorem setLastErr_slaveAddr (c : Option BusFailure) (s : State) : (setLastErr c s).slaveAddr = s.slaveAddr := rfl
@[simp] theorem setLastErr_calT1 (c : Option BusFailure) (s : State) : (setLastErr c s).calT1 = s.calT1 := rfl
@[simp] theorem setLastErr_calT2 (c : Option BusFailure) (s : State) : (setLastErr c s).calT2 = s.calT2 := rfl
@[simp] theorem setLastErr_calT3 (c : Option BusFailure) (s : State) : (setLastErr c s).calT3 = s.calT3 := rfl
@[simp] theorem setLastErr_raw (c : Option BusFailure) (s : State) : (setLastErr c s).raw = s.raw := rfl
@[simp] theorem setLastErr_temp (c : Option BusFailure) (s : State) : (setLastErr c s).temp = s.temp := rfl
@[simp] theorem setLastErr_busLog (c : Option BusFailure) (s : State) : (setLastErr c s).busLog = s.busLog := rfl
@[simp] theorem setLastErr_env (c : Option BusFailure) (s : State) : (setLastErr c s).env = s.env := rfl
@[simp] theorem setLastErr_agenda (c : Option BusFailure) (s : State) : (setLastErr c s).agenda = s.agenda := rfl
@[simp] theorem setLastErr_reads (c : Option BusFailure) (s : State) : (setLastErr c s).reads = s.reads := rfl
@[simp] theorem setLastErr_cfg (c : Option BusFailure) (s : State) : (setLastErr c s).cfg = s.cfg := rfl

@[simp] theorem commitCal_cmd (t1 t2 : BitVec 16) (t3 : BitVec 8) (s : State) : (commitCal t1 t2 t3 s).cmd = s.cmd := rfl
@[simp] theorem commitCal_status (t1 t2 : BitVec 16) (t3 : BitVec 8) (s : State) : (commitCal t1 t2 t3 s).status = { s.status with calValid := true } := rfl
@[simp] theorem commitCal_data (t1 t2 : BitVec 16) (t3 : BitVec 8) (s : State) : (commitCal t1 t2 t3 s).data = s.data := rfl
@[simp] theorem commitCal_slaveAddr (t1 t2 : BitVec 16) (t3 : BitVec 8) (s : State) : (commitCal t1 t2 t3 s).slaveAddr = s.slaveAddr := rfl
@[simp] theorem commitCal_calT1 (t1 t2 : BitVec 16) (t3 : BitVec 8) (s : State) : (commitCal t1 t2 t3 s).calT1 = t1 := rfl
@[simp] theorem commitCal_calT2 (t1 t2 : BitVec 16) (t3 : BitVec 8) (s : State) : (commitCal t1 t2 t3 s).calT2 = t2 := rfl
@[simp] theorem commitCal_calT3 (t1 t2 : BitVec 16) (t3 : BitVec 8) (s : State) : (commitCal t1 t2 t3 s).calT3 = t3 := rfl
@[simp] theorem commitCal_raw (t1 t2 : BitVec 16) (t3 : BitVec 8) (s : State) : (commitCal t1 t2 t3 s).raw = s.raw := rfl
@[simp] theorem commitCal_temp (t1 t2 : BitVec 16) (t3 : BitVec 8) (s : State) : (commitCal t1 t2 t3 s).temp = s.temp := rfl
@[simp] theorem commitCal_busLog (t1 t2 : BitVec 16) (t3 : BitVec 8) (s : State) : (commitCal t1 t2 t3 s).busLog = s.busLog := rfl
@[simp] theorem commitCal_env (t1 t2 : BitVec 16) (t3 : BitVec 8) (s : State) : (commitCal t1 t2 t3 s).env = s.env := rfl
@[simp] theorem commitCal_agenda (t1 t2 : BitVec 16) (t3 : BitVec 8) (s : State) : (commitCal t1 t2 t3 s).agenda = s.agenda := rfl
@[simp] theorem commitCal_reads (t1 t2 : BitVec 16) (t3 : BitVec 8) (s : State) : (commitCal t1 t2 t3 s).reads = s.reads := rfl
@[simp] theorem commitCal_cfg (t1 t2 : BitVec 16) (t3 : BitVec 8) (s : State) : (commitCal t1 t2 t3 s).cfg = s.cfg := rfl

@[simp] theorem toIdle_cmd (s : State) : (toIdle s).cmd = s.cmd := rfl
@[simp] theorem toIdle_status (s : State) : (toIdle s).status = { s.status with phase := .idle, dir := .write, rxEnd := false } := rfl
@[simp] theorem toIdle_data (s : State) : (toIdle s).data = s.data := rfl
@[simp] theorem toIdle_slaveAddr (s : State) : (toIdle s).slaveAddr = s.slaveAddr := rfl
@[simp] theorem toIdle_calT1 (s : State) : (toIdle s).calT1 = s.calT1 := rfl
@[simp] theorem toIdle_calT2 (s : State) : (toIdle s).calT2 = s.calT2 := rfl
@[simp] theorem toIdle_calT3 (s : State) : (toIdle s).calT3 = s.calT3 := rfl
@[simp] theorem toIdle_raw (s : State) : (toIdle s).raw = s.raw := rfl
@[simp] theorem toIdle_temp (s : State) : (toIdle s).temp = s.temp := rfl
@[simp] theorem toIdle_busLog (s : State) : (toIdle s).busLog = s.busLog := rfl
@[simp] theorem toIdle_env (s : State) : (toIdle s).env = s.env := rfl
@[simp] theorem toIdle_agenda (s : State) : (toIdle s).agenda = s.agenda := rfl
@[simp] theorem toIdle_reads (s : State) : (toIdle s).reads = s.reads := rfl
@[simp] theorem toIdle_cfg (s : State) : (toIdle s).cfg = s.cfg := rfl

@[simp] theorem forceIdle_cmd (s : State) : (forceIdle s).cmd = s.cmd := rfl
@[simp] theorem forceIdle_status (s : State) : (forceIdle s).status = { s.status with busState := .idle } := rfl
@[simp] theorem forceIdle_data (s : State) : (forceIdle s).data = s.data := rfl
@[simp] theorem forceIdle_slaveAddr (s : State) : (forceIdle s).slaveAddr = s.slaveAddr := rfl
@[simp] theorem forceIdle_calT1 (s : State) : (forceIdle s).calT1 = s.calT1 := rfl
@[simp] theorem forceIdle_calT2 (s : State) : (forceIdle s).calT2 = s.calT2 := rfl
@[simp] theorem forceIdle_calT3 (s : State) : (forceIdle s).calT3 = s.calT3 := rfl
@[simp] theorem forceIdle_raw (s : State) : (forceIdle s).raw = s.raw := rfl
@[simp] theorem forceIdle_temp (s : State) : (forceIdle s).temp = s.temp := rfl
@[simp] theorem forceIdle_busLog (s : State) : (forceIdle s).busLog = s.busLog ++ [.forcedStop, .forceIdle] := by
  simp [forceIdle, emit, setBusState]
@[simp] theorem forceIdle_env (s : State) : (forceIdle s).env = s.env := rfl
@[simp] theorem forceIdle_agenda (s : State) : (forceIdle s).agenda = s.agenda := rfl
@[simp] theorem forceIdle_reads (s : State) : (forceIdle s).reads = s.reads := rfl
@[simp] theorem forceIdle_cfg (s : State) : (forceIdle s).cfg = s.cfg := rfl

end Sys2Proof.Machine
end

