-- ==== Sys2Proof/Laws/Draws.lean ====
section
/-! SUPPORT. ENV's draws: what one draw consumes and leaves, what a bounded wait can do, and the draws of a scripted
ENV. -/

namespace Sys2Proof.Machine

/-! ### One draw takes one answer of its kind -/

@[simp] theorem drawReady_drawn (k : WaitKind) (e : Env) : (drawReady k e).2.drawn = e.drawn + 1 := by
  unfold drawReady; split <;> rfl
@[simp] theorem drawReady_ready (k : WaitKind) (e : Env) : (drawReady k e).2.ready = e.ready.tail := by
  unfold drawReady; split <;> simp_all
@[simp] theorem drawReady_acks (k : WaitKind) (e : Env) : (drawReady k e).2.acks = e.acks := by
  unfold drawReady; split <;> rfl
@[simp] theorem drawReady_rxBytes (k : WaitKind) (e : Env) : (drawReady k e).2.rxBytes = e.rxBytes := by
  unfold drawReady; split <;> rfl
@[simp] theorem drawReady_busStates (k : WaitKind) (e : Env) : (drawReady k e).2.busStates = e.busStates := by
  unfold drawReady; split <;> rfl
@[simp] theorem drawReady_busyReads (k : WaitKind) (e : Env) : (drawReady k e).2.busyReads = e.busyReads := by
  unfold drawReady; split <;> rfl
@[simp] theorem drawReady_busyDrawn (k : WaitKind) (e : Env) : (drawReady k e).2.busyDrawn = e.busyDrawn := by
  unfold drawReady; split <;> rfl

@[simp] theorem drawAck_drawn (e : Env) : (drawAck e).2.drawn = e.drawn + 1 := by
  unfold drawAck; split <;> rfl
@[simp] theorem drawAck_ready (e : Env) : (drawAck e).2.ready = e.ready := by
  unfold drawAck; split <;> rfl
@[simp] theorem drawAck_acks (e : Env) : (drawAck e).2.acks = e.acks.tail := by
  unfold drawAck; split <;> simp_all
@[simp] theorem drawAck_rxBytes (e : Env) : (drawAck e).2.rxBytes = e.rxBytes := by
  unfold drawAck; split <;> rfl
@[simp] theorem drawAck_busStates (e : Env) : (drawAck e).2.busStates = e.busStates := by
  unfold drawAck; split <;> rfl
@[simp] theorem drawAck_busyReads (e : Env) : (drawAck e).2.busyReads = e.busyReads := by
  unfold drawAck; split <;> rfl
@[simp] theorem drawAck_busyDrawn (e : Env) : (drawAck e).2.busyDrawn = e.busyDrawn := by
  unfold drawAck; split <;> rfl

@[simp] theorem drawRxByte_drawn (e : Env) : (drawRxByte e).2.drawn = e.drawn + 1 := by
  unfold drawRxByte; split <;> rfl
@[simp] theorem drawRxByte_ready (e : Env) : (drawRxByte e).2.ready = e.ready := by
  unfold drawRxByte; split <;> rfl
@[simp] theorem drawRxByte_acks (e : Env) : (drawRxByte e).2.acks = e.acks := by
  unfold drawRxByte; split <;> rfl
@[simp] theorem drawRxByte_rxBytes (e : Env) : (drawRxByte e).2.rxBytes = e.rxBytes.tail := by
  unfold drawRxByte; split <;> simp_all
@[simp] theorem drawRxByte_busStates (e : Env) : (drawRxByte e).2.busStates = e.busStates := by
  unfold drawRxByte; split <;> rfl
@[simp] theorem drawRxByte_busyReads (e : Env) : (drawRxByte e).2.busyReads = e.busyReads := by
  unfold drawRxByte; split <;> rfl
@[simp] theorem drawRxByte_busyDrawn (e : Env) : (drawRxByte e).2.busyDrawn = e.busyDrawn := by
  unfold drawRxByte; split <;> rfl

@[simp] theorem drawBusState_drawn (e : Env) : (drawBusState e).2.drawn = e.drawn + 1 := by
  unfold drawBusState; split <;> rfl
@[simp] theorem drawBusState_ready (e : Env) : (drawBusState e).2.ready = e.ready := by
  unfold drawBusState; split <;> rfl
@[simp] theorem drawBusState_acks (e : Env) : (drawBusState e).2.acks = e.acks := by
  unfold drawBusState; split <;> rfl
@[simp] theorem drawBusState_rxBytes (e : Env) : (drawBusState e).2.rxBytes = e.rxBytes := by
  unfold drawBusState; split <;> rfl
@[simp] theorem drawBusState_busStates (e : Env) : (drawBusState e).2.busStates = e.busStates.tail := by
  unfold drawBusState; split <;> simp_all
@[simp] theorem drawBusState_busyReads (e : Env) : (drawBusState e).2.busyReads = e.busyReads := by
  unfold drawBusState; split <;> rfl
@[simp] theorem drawBusState_busyDrawn (e : Env) : (drawBusState e).2.busyDrawn = e.busyDrawn := by
  unfold drawBusState; split <;> rfl

@[simp] theorem drawBusyRead_drawn (e : Env) : (drawBusyRead e).2.drawn = e.drawn := by
  unfold drawBusyRead; split <;> rfl
@[simp] theorem drawBusyRead_busStates (e : Env) : (drawBusyRead e).2.busStates = e.busStates := by
  unfold drawBusyRead; split <;> rfl

/-! ### The draws of a scripted ENV -/

theorem drawReady_listed {b : Bool} {l : List Bool} {e : Env} (k : WaitKind) (h : e.ready = b :: l) :
    drawReady k e = (b, { e with ready := l, drawn := e.drawn + 1 }) := by
  simp [drawReady, h]

theorem drawAck_listed {b : Bool} {l : List Bool} {e : Env} (h : e.acks = b :: l) :
    drawAck e = (b, { e with acks := l, drawn := e.drawn + 1 }) := by
  simp [drawAck, h]

theorem drawRxByte_listed {b : Byte} {l : List Byte} {e : Env} (h : e.rxBytes = b :: l) :
    drawRxByte e = (b, { e with rxBytes := l, drawn := e.drawn + 1 }) := by
  simp [drawRxByte, h]

theorem drawBusState_listed {b : BusState} {l : List BusState} {e : Env} (h : e.busStates = b :: l) :
    drawBusState e = (b, { e with busStates := l, drawn := e.drawn + 1 }) := by
  simp [drawBusState, h]

/-! ### A bounded wait -/

/-- A wait takes at most as many draws as it has polls, and touches no other answer. -/
theorem waitReady_spec (k : WaitKind) (n : Nat) (e : Env) :
    (waitReady k n e).2.drawn ≤ e.drawn + n ∧ e.drawn ≤ (waitReady k n e).2.drawn ∧
      (waitReady k n e).2.acks = e.acks ∧ (waitReady k n e).2.rxBytes = e.rxBytes ∧
      (waitReady k n e).2.busStates = e.busStates ∧ (waitReady k n e).2.busyReads = e.busyReads ∧
      (waitReady k n e).2.busyDrawn = e.busyDrawn := by
  induction n generalizing e with
  | zero => simp [waitReady]
  | succ n ih =>
    unfold waitReady
    split
    · simp
    · have h := ih (drawReady k e).2
      simp at h ⊢
      exact ⟨by omega, by omega, h.2.2⟩

/-- A wait whose first poll is answered 1 is Ready at once. -/
theorem waitReady_listed {l : List Bool} {e : Env} (k : WaitKind) {n : Nat} (hn : 1 ≤ n) (h : e.ready = true :: l) :
    waitReady k n e = (true, { e with ready := l, drawn := e.drawn + 1 }) := by
  cases n with
  | zero => omega
  | succ n => simp [waitReady, drawReady_listed k h]

end Sys2Proof.Machine
end

