-- ==== Sys2Proof/Laws/Transport.lean ====
section
/-! SUPPORT. What each transport procedure of Machine/Ops.lean can do, once for each: what it may change (`Ran`), how
it ends, and what holds where it ends so. -/

namespace Sys2Proof.Machine

/-! ### What a procedure may change -/

/-- `t` is reached from `s` by transport procedures that took at most `n` draws. -/
structure Ran (n : Nat) (s t : State) : Prop where
  frame : OnlyTransport s t
  attempts : t.status.attempts = s.status.attempts
  log : LogExtends s t
  drawn_le : t.env.drawn ≤ s.env.drawn + n
  drawn_ge : s.env.drawn ≤ t.env.drawn
  busyReads : t.env.busyReads = s.env.busyReads
  busyDrawn : t.env.busyDrawn = s.env.busyDrawn

theorem OnlyTransport.refl (s : State) : OnlyTransport s s := rfl

theorem OnlyTransport.trans {s t u : State} (h : OnlyTransport s t) (k : OnlyTransport t u) : OnlyTransport s u := by
  unfold OnlyTransport at *
  rw [k, h]

theorem OnlyTransport.slaveAddr {s t : State} (h : OnlyTransport s t) : t.slaveAddr = s.slaveAddr := by rw [h]
theorem OnlyTransport.cfg {s t : State} (h : OnlyTransport s t) : t.cfg = s.cfg := by rw [h]
theorem OnlyTransport.cmd {s t : State} (h : OnlyTransport s t) : t.cmd = s.cmd := by rw [h]
theorem OnlyTransport.data {s t : State} (h : OnlyTransport s t) : t.data = s.data := by rw [h]
theorem OnlyTransport.calT1 {s t : State} (h : OnlyTransport s t) : t.calT1 = s.calT1 := by rw [h]
theorem OnlyTransport.calT2 {s t : State} (h : OnlyTransport s t) : t.calT2 = s.calT2 := by rw [h]
theorem OnlyTransport.calT3 {s t : State} (h : OnlyTransport s t) : t.calT3 = s.calT3 := by rw [h]
theorem OnlyTransport.raw {s t : State} (h : OnlyTransport s t) : t.raw = s.raw := by rw [h]
theorem OnlyTransport.temp {s t : State} (h : OnlyTransport s t) : t.temp = s.temp := by rw [h]
theorem OnlyTransport.agenda {s t : State} (h : OnlyTransport s t) : t.agenda = s.agenda := by rw [h]
theorem OnlyTransport.reads {s t : State} (h : OnlyTransport s t) : t.reads = s.reads := by rw [h]
theorem OnlyTransport.result {s t : State} (h : OnlyTransport s t) : t.status.result = s.status.result := by rw [h]
theorem OnlyTransport.busy {s t : State} (h : OnlyTransport s t) : t.status.busy = s.status.busy := by rw [h]
theorem OnlyTransport.ovr {s t : State} (h : OnlyTransport s t) : t.status.ovr = s.status.ovr := by rw [h]
theorem OnlyTransport.calValid {s t : State} (h : OnlyTransport s t) : t.status.calValid = s.status.calValid := by rw [h]
theorem OnlyTransport.tempOvf {s t : State} (h : OnlyTransport s t) : t.status.tempOvf = s.status.tempOvf := by rw [h]

theorem LogExtends.refl (s : State) : LogExtends s s := ⟨[], by simp⟩

theorem LogExtends.trans {s t u : State} (h : LogExtends s t) (k : LogExtends t u) : LogExtends s u := by
  obtain ⟨l, hl⟩ := h
  obtain ⟨m, hm⟩ := k
  exact ⟨l ++ m, by rw [hm, hl, List.append_assoc]⟩

theorem Ran.refl (s : State) : Ran 0 s s := ⟨.refl s, rfl, .refl s, Nat.le_refl _, Nat.le_refl _, rfl, rfl⟩

theorem Ran.trans {n m : Nat} {s t u : State} (h : Ran n s t) (k : Ran m t u) : Ran (n + m) s u where
  frame := h.frame.trans k.frame
  attempts := k.attempts.trans h.attempts
  log := h.log.trans k.log
  drawn_le := by have := h.drawn_le; have := k.drawn_le; omega
  drawn_ge := Nat.le_trans h.drawn_ge k.drawn_ge
  busyReads := k.busyReads.trans h.busyReads
  busyDrawn := k.busyDrawn.trans h.busyDrawn

theorem Ran.mono {n m : Nat} {s t : State} (h : Ran n s t) (hnm : n ≤ m) : Ran m s t :=
  { h with drawn_le := by have := h.drawn_le; omega }

/-- A procedure ended with a bus failure and left the transport in Error (R103). -/
def EndsFailed {α : Type} (r : Run α) : Prop :=
  ∃ c, r.1 = .raised (.bus c) ∧ r.2.status.phase = .error ∧ r.2.status.lastErr = some c

/-! ### The small procedures -/

theorem andThen_ok {α β : Type} (v : α) (s : State) (rest : α → State → Run β) :
    andThen (.ok v, s) rest = rest v s := rfl

theorem andThen_raised {α β : Type} (f : Failure) (s : State) (rest : α → State → Run β) :
    andThen (.raised f, s) rest = (.raised f, s) := rfl

/-- What `p()?` and a rest can do: the rest after a success, or the failure unchanged. -/
theorem andThen_cases {α β : Type} (r : Run α) (rest : α → State → Run β) :
    (∃ v, r.1 = .ok v ∧ andThen r rest = rest v r.2) ∨ (∃ f, r.1 = .raised f ∧ andThen r rest = (.raised f, r.2)) := by
  rcases r with ⟨_ | _, _⟩
  · exact .inl ⟨_, rfl, rfl⟩
  · exact .inr ⟨_, rfl, rfl⟩

theorem waitFor_ran (k : WaitKind) (s : State) : Ran s.cfg.pollLimit s (waitFor k s).2 := by
  have h := waitReady_spec k s.cfg.pollLimit s.env
  exact ⟨rfl, rfl, ⟨[], by simp [waitFor]⟩, h.1, h.2.1, h.2.2.2.2.2.1, h.2.2.2.2.2.2⟩

theorem waitFor_state (k : WaitKind) (s : State) : (waitFor k s).2 = setEnv (waitReady k s.cfg.pollLimit s.env).2 s := rfl

theorem sampleBus_ran (s : State) : Ran 1 s (sampleBus s).2 :=
  ⟨rfl, rfl, ⟨[], by simp [sampleBus]⟩, by simp [sampleBus], by simp [sampleBus], by simp [sampleBus],
    by simp [sampleBus]⟩

theorem sampleAck_ran (s : State) : Ran 1 s (sampleAck s).2 :=
  ⟨rfl, rfl, ⟨[], by simp [sampleAck]⟩, by simp [sampleAck], by simp [sampleAck], by simp [sampleAck],
    by simp [sampleAck]⟩

theorem busFail_ran {α : Type} (c : BusFailure) (s : State) : Ran 0 s (busFail (α := α) c s).2 :=
  ⟨rfl, rfl, ⟨[], by simp [busFail, raise]⟩, by simp [busFail, raise], by simp [busFail, raise],
    by simp [busFail, raise], by simp [busFail, raise]⟩

theorem busFail_endsFailed {α : Type} (c : BusFailure) (s : State) : EndsFailed (busFail (α := α) c s) :=
  ⟨c, rfl, rfl, rfl⟩

theorem emit_ran (e : BusEvent) (s : State) : Ran 0 s (emit e s) :=
  ⟨rfl, rfl, ⟨[e], rfl⟩, Nat.le_refl _, Nat.le_refl _, rfl, rfl⟩

theorem toIdle_ran (s : State) : Ran 0 s (toIdle s) :=
  ⟨rfl, rfl, ⟨[], by simp⟩, Nat.le_refl _, Nat.le_refl _, rfl, rfl⟩

theorem forceIdle_ran (s : State) : Ran 0 s (forceIdle s) :=
  ⟨rfl, rfl, ⟨_, forceIdle_busLog s⟩, Nat.le_refl _, Nat.le_refl _, rfl, rfl⟩

/-! ### START and WRITE_BYTE -/

/-- The wait and acknowledge either end OK, having written `ACK` = 1 and nothing else but ENV, or with a bus failure that
leaves `DIR` and `RXEND`. -/
theorem awaitAck_spec (k : WaitKind) (s : State) :
    Ran (s.cfg.pollLimit + 1) s (awaitAck k s).2 ∧
      (awaitAck k s).2.status.dir = s.status.dir ∧ (awaitAck k s).2.status.rxEnd = s.status.rxEnd ∧
      (awaitAck k s).2.busLog = s.busLog ∧
      (((awaitAck k s).1 = .ok () ∧ (awaitAck k s).2 = setAck true (setEnv (awaitAck k s).2.env s)) ∨
        EndsFailed (awaitAck k s)) := by
  have hw := waitFor_ran k s
  unfold awaitAck
  simp only
  split
  · split
    · rename_i h1 h2
      refine ⟨hw.trans (sampleAck_ran _), rfl, rfl, rfl, .inl ⟨rfl, ?_⟩⟩
      simp only [sampleAck, waitFor_state, setEnv_env] at h2
      simp [sampleAck, h2, waitFor_state, setAck, setEnv]
    · exact ⟨(hw.trans (sampleAck_ran _)).trans (busFail_ran _ _), rfl, rfl, rfl, .inr (busFail_endsFailed _ _)⟩
  · exact ⟨(hw.trans (busFail_ran _ _)).mono (by omega), rfl, rfl, rfl, .inr (busFail_endsFailed _ _)⟩

/-- From `PHASE <- Addressing` on, START ends in DataPhase with its direction, or with a bus failure. -/
theorem addressSlave_spec (a : Addr7) (d : Dir) (s : State) :
    Ran (s.cfg.pollLimit + 1) s (addressSlave a d s).2 ∧
      (addressSlave a d s).2.status.dir = d ∧ (addressSlave a d s).2.status.rxEnd = false ∧
      (addressSlave a d s).2.busLog = s.busLog ++ [.addrByte (addressByte a d)] ∧
      (((addressSlave a d s).1 = .ok () ∧ (addressSlave a d s).2.status.phase = .dataPhase ∧
          (addressSlave a d s).2.status.ack = true ∧
          (addressSlave a d s).2.status.busState = s.status.busState ∧
          (addressSlave a d s).2.status.lastErr = s.status.lastErr) ∨
        EndsFailed (addressSlave a d s)) := by
  obtain ⟨hr, hd, hx, hl, hends⟩ :=
    awaitAck_spec .addrDone (emit (.addrByte (addressByte a d)) (setRxEnd false (setDir d (setPhase .addressing s))))
  have h0 : Ran 0 s (emit (.addrByte (addressByte a d)) (setRxEnd false (setDir d (setPhase .addressing s)))) :=
    ⟨rfl, rfl, ⟨_, rfl⟩, Nat.le_refl _, Nat.le_refl _, rfl, rfl⟩
  have h1 : ∀ t, Ran 0 t (setPhase .dataPhase t) := fun t =>
    ⟨rfl, rfl, ⟨[], by simp⟩, Nat.le_refl _, Nat.le_refl _, rfl, rfl⟩
  have hr' := h0.trans hr
  unfold addressSlave
  rcases hends with ⟨hok, heq⟩ | ⟨c, hc, hp, he⟩
  · rcases andThen_cases (awaitAck .addrDone (emit (.addrByte (addressByte a d))
        (setRxEnd false (setDir d (setPhase .addressing s))))) (fun _ t => ((.ok (), setPhase .dataPhase t) : Run Unit))
      with ⟨v, _, h⟩ | ⟨f, hf, _⟩
    · rw [h]
      refine ⟨(hr'.trans (h1 _)).mono (by simp), by simp [hd], by simp [hx], by simp [hl], .inl ⟨rfl, rfl, ?_, ?_, ?_⟩⟩ <;>
        · simp only [setPhase_status]
          rw [heq]
          simp
    · simp [hok] at hf
  · rcases andThen_cases (awaitAck .addrDone (emit (.addrByte (addressByte a d))
        (setRxEnd false (setDir d (setPhase .addressing s))))) (fun _ t => ((.ok (), setPhase .dataPhase t) : Run Unit))
      with ⟨v, hv, _⟩ | ⟨f, hf, h⟩
    · simp [hc] at hv
    · rw [h]
      rw [hc] at hf
      cases hf
      exact ⟨hr'.mono (by simp), by simp [hd], by simp [hx], by simp [hl], .inr ⟨c, rfl, hp, he⟩⟩

/-- What START can do (R110): refuse its legality check, fail with a bus failure, or reach DataPhase. -/
theorem startProc_spec (a : Addr7) (d : Dir) (s : State) :
    (s.status.phase ≠ .idle ∧ s.status.phase ≠ .dataPhase ∧ startProc a d s = raise .sequenceError s) ∨
      ((s.status.phase = .idle ∨ s.status.phase = .dataPhase) ∧
        Ran (s.cfg.pollLimit + 2) s (startProc a d s).2 ∧
        (s.status.phase = .dataPhase → Ran (s.cfg.pollLimit + 1) s (startProc a d s).2) ∧
        (((startProc a d s).1 = .ok () ∧ (startProc a d s).2.status.phase = .dataPhase ∧
            (startProc a d s).2.status.dir = d ∧ (startProc a d s).2.status.rxEnd = false ∧
            (startProc a d s).2.status.ack = true ∧ (startProc a d s).2.status.lastErr = s.status.lastErr ∧
            (startProc a d s).2.busLog =
              s.busLog ++ [if s.status.phase = .idle then .startCond else .repStart, .addrByte (addressByte a d)]) ∨
          (EndsFailed (startProc a d s) ∧
            ((startProc a d s).2.status.rxEnd = true →
              s.status.rxEnd = true ∧ (startProc a d s).2.status.dir = s.status.dir)))) := by
  unfold startProc
  cases hp : s.status.phase <;> simp only
  · right
    refine ⟨.inl trivial, ?_, by simp, ?_⟩
    · split
      · have h := addressSlave_spec a d (emit .startCond (sampleBus s).2)
        exact (((sampleBus_ran s).trans (emit_ran .startCond _)).trans h.1).mono (by simp [sampleBus]; omega)
      · exact ((sampleBus_ran s).trans (busFail_ran _ _)).mono (by omega)
    · split
      · obtain ⟨-, hd, hx, hl, ⟨hok, hph, hak, -, hle⟩ | hf⟩ := addressSlave_spec a d (emit .startCond (sampleBus s).2)
        · exact .inl ⟨hok, hph, hd, hx, hak, by rw [hle]; rfl, by rw [hl]; simp [sampleBus]⟩
        · exact .inr ⟨hf, by simp [hx]⟩
      · exact .inr ⟨busFail_endsFailed _ _, fun h => ⟨h, rfl⟩⟩
  · simp
  · right
    have h := addressSlave_spec a d (emit .repStart s)
    have hr : Ran (s.cfg.pollLimit + 1) s (addressSlave a d (emit .repStart s)).2 :=
      ((emit_ran .repStart s).trans h.1).mono (by simp)
    refine ⟨.inr trivial, hr.mono (by omega), fun _ => hr, ?_⟩
    obtain ⟨-, hd, hx, hl, ⟨hok, hph, hak, -, hle⟩ | hf⟩ := h
    · exact .inl ⟨hok, hph, hd, hx, hak, by rw [hle]; rfl, by rw [hl]; simp⟩
    · exact .inr ⟨hf, by simp [hx]⟩
  · simp

/-- What WRITE_BYTE can do (R112). -/
theorem writeByteProc_spec (b : Byte) (s : State) :
    (¬(s.status.phase = .dataPhase ∧ s.status.dir = .write) ∧ writeByteProc b s = raise .sequenceError s) ∨
      ((s.status.phase = .dataPhase ∧ s.status.dir = .write) ∧
        Ran (s.cfg.pollLimit + 1) s (writeByteProc b s).2 ∧
        (writeByteProc b s).2.status.dir = .write ∧ (writeByteProc b s).2.status.rxEnd = s.status.rxEnd ∧
        (writeByteProc b s).2.busLog = s.busLog ++ [.txByte b] ∧
        (((writeByteProc b s).1 = .ok () ∧ (writeByteProc b s).2.status.phase = .dataPhase ∧
            (writeByteProc b s).2.status.ack = true ∧ (writeByteProc b s).2.status.lastErr = s.status.lastErr) ∨
          EndsFailed (writeByteProc b s))) := by
  unfold writeByteProc
  by_cases hleg : s.status.phase = .dataPhase ∧ s.status.dir = .write
  · right
    rw [if_pos hleg]
    obtain ⟨hr, hd, hx, hl, hends⟩ := awaitAck_spec .txDone (emit (.txByte b) s)
    refine ⟨hleg, ((emit_ran (.txByte b) s).trans hr).mono (by simp), by rw [hd]; exact hleg.2, by rw [hx]; rfl,
      by rw [hl]; rfl, ?_⟩
    rcases hends with ⟨hok, heq⟩ | hf
    · refine .inl ⟨hok, ?_, ?_, ?_⟩ <;> rw [heq] <;> simp [hleg.1]
    · exact .inr hf
  · left
    exact ⟨hleg, if_neg hleg⟩

/-! ### READ_BYTE, STOP and RECOVER -/

/-- What READ_BYTE can do (R116): it never raises NO_ACK, and sends no stop condition (R117). -/
theorem readByteProc_spec (k : Bool) (s : State) :
    (¬(s.status.phase = .dataPhase ∧ s.status.dir = .read ∧ s.status.rxEnd = false) ∧
        readByteProc k s = raise .sequenceError s) ∨
      ((s.status.phase = .dataPhase ∧ s.status.dir = .read ∧ s.status.rxEnd = false) ∧
        Ran (s.cfg.pollLimit + 1) s (readByteProc k s).2 ∧ (readByteProc k s).2.status.dir = .read ∧
        ((∃ v, (readByteProc k s).1 = .ok v ∧ (readByteProc k s).2.status.phase = .dataPhase ∧
            (readByteProc k s).2.status.rxEnd = !k ∧ (readByteProc k s).2.status.lastErr = s.status.lastErr ∧
            (readByteProc k s).2.status.ack = s.status.ack ∧
            (readByteProc k s).2.busLog = s.busLog ++ [.rxByte v, .masterAck k]) ∨
          (EndsFailed (readByteProc k s) ∧ (readByteProc k s).1 = .raised (.bus .timeout) ∧
            (readByteProc k s).2.status.rxEnd = false ∧ (readByteProc k s).2.busLog = s.busLog))) := by
  unfold readByteProc
  by_cases hleg : s.status.phase = .dataPhase ∧ s.status.dir = .read ∧ s.status.rxEnd = false
  · right
    rw [if_pos hleg]
    refine ⟨hleg, ?_⟩
    have hw := waitFor_ran .rxDone s
    simp only
    split
    · have h1 : Ran 1 (waitFor .rxDone s).2 (emit (.masterAck k) (emit (.rxByte (drawRxByte (waitFor .rxDone s).2.env).1)
          (setEnv (drawRxByte (waitFor .rxDone s).2.env).2 (waitFor .rxDone s).2))) :=
        ⟨rfl, rfl, ⟨[_, _], List.append_assoc _ [_] [_]⟩, by simp, by simp, by simp, by simp⟩
      have h2 : ∀ t, Ran 0 t (setRxEnd true t) := fun t =>
        ⟨rfl, rfl, ⟨[], by simp⟩, Nat.le_refl _, Nat.le_refl _, rfl, rfl⟩
      cases k
      · exact ⟨((hw.trans h1).trans (h2 _)).mono (by omega), by simp [waitFor, hleg],
          .inl ⟨_, rfl, by simp [waitFor, hleg], rfl, rfl, rfl, by simp [waitFor]⟩⟩
      · exact ⟨hw.trans h1, by simp [waitFor, hleg],
          .inl ⟨_, rfl, by simp [waitFor, hleg], by simp [waitFor, hleg], rfl, rfl, by simp [waitFor]⟩⟩
    · exact ⟨(hw.trans (busFail_ran _ _)).mono (by omega), hleg.2.1,
        .inr ⟨busFail_endsFailed _ _, rfl, hleg.2.2, rfl⟩⟩
  · left
    exact ⟨hleg, if_neg hleg⟩

/-- STOP's wait (R122): it ends OK in Idle with a sample of Idle, or with BUS_WEDGED, `DIR` and `RXEND` kept. -/
theorem stopPoll_spec (n : Nat) (s : State) :
    Ran n s (stopPoll n s).2 ∧ (stopPoll n s).2.busLog = s.busLog ∧ (stopPoll n s).2.status.ack = s.status.ack ∧
      (((stopPoll n s).1 = .ok () ∧ (stopPoll n s).2.status.phase = .idle ∧ (stopPoll n s).2.status.dir = .write ∧
          (stopPoll n s).2.status.rxEnd = false ∧ (stopPoll n s).2.status.busState = .idle ∧
          (stopPoll n s).2.status.lastErr = s.status.lastErr) ∨
        (EndsFailed (stopPoll n s) ∧ (stopPoll n s).1 = .raised (.bus .busWedged) ∧
          (stopPoll n s).2.status.dir = s.status.dir ∧ (stopPoll n s).2.status.rxEnd = s.status.rxEnd)) := by
  induction n generalizing s with
  | zero => exact ⟨busFail_ran _ _, rfl, rfl, .inr ⟨busFail_endsFailed _ _, rfl, rfl, rfl⟩⟩
  | succ n ih =>
    unfold stopPoll
    split
    · rename_i h
      exact ⟨((sampleBus_ran s).trans (toIdle_ran _)).mono (by omega), by simp [sampleBus], by simp [sampleBus],
        .inl ⟨rfl, by simp, by simp, by simp, by simpa [sampleBus] using h, by simp [sampleBus]⟩⟩
    · obtain ⟨hr, hl, ha, hends⟩ := ih (sampleBus s).2
      refine ⟨((sampleBus_ran s).trans hr).mono (by omega), by rw [hl]; rfl, by rw [ha]; rfl, ?_⟩
      rcases hends with ⟨h1, h2, h3, h4, h5, h6⟩ | ⟨h1, h2, h3, h4⟩
      · exact .inl ⟨h1, h2, h3, h4, h5, by rw [h6]; rfl⟩
      · exact .inr ⟨h1, h2, by rw [h3]; rfl, by rw [h4]; rfl⟩

/-- What STOP can do (R122, R123). -/
theorem stopProc_spec (s : State) :
    (s.status.phase ≠ .dataPhase ∧ stopProc s = raise .sequenceError s) ∨
      (s.status.phase = .dataPhase ∧ Ran s.cfg.pollLimit s (stopProc s).2 ∧
        (stopProc s).2.busLog = s.busLog ++ [.stopCond] ∧
        (((stopProc s).1 = .ok () ∧ (stopProc s).2.status.phase = .idle ∧ (stopProc s).2.status.dir = .write ∧
            (stopProc s).2.status.rxEnd = false ∧ (stopProc s).2.status.busState = .idle ∧
            (stopProc s).2.status.lastErr = s.status.lastErr) ∨
          (EndsFailed (stopProc s) ∧ (stopProc s).1 = .raised (.bus .busWedged) ∧
            (stopProc s).2.status.dir = s.status.dir ∧ (stopProc s).2.status.rxEnd = s.status.rxEnd))) := by
  unfold stopProc
  by_cases hleg : s.status.phase = .dataPhase
  · right
    rw [if_pos hleg]
    obtain ⟨hr, hl, -, hends⟩ := stopPoll_spec s.cfg.pollLimit (emit .stopCond s)
    exact ⟨hleg, ((emit_ran .stopCond s).trans hr).mono (by omega), by rw [hl]; rfl, hends⟩
  · exact .inl ⟨hleg, if_neg hleg⟩

/-- What RECOVER can do (R130 to R132). -/
theorem recoverProc_spec (s : State) :
    (¬(s.status.phase = .idle ∨ s.status.phase = .error) ∧ recoverProc s = raise .sequenceError s) ∨
      ((s.status.phase = .idle ∨ s.status.phase = .error) ∧ Ran 1 s (recoverProc s).2 ∧ (recoverProc s).1 = .ok () ∧
        (recoverProc s).2.status.phase = .idle ∧ (recoverProc s).2.status.dir = .write ∧
        (recoverProc s).2.status.rxEnd = false ∧ (recoverProc s).2.status.busState = .idle ∧
        (recoverProc s).2.status.ack = s.status.ack ∧ (recoverProc s).2.status.lastErr = s.status.lastErr ∧
        (recoverProc s).2.busLog =
          s.busLog ++ (if (drawBusState s.env).1 = .idle then [] else [.forcedStop, .forceIdle])) := by
  unfold recoverProc
  by_cases hleg : s.status.phase = .idle ∨ s.status.phase = .error
  · right
    rw [if_pos hleg]
    dsimp only
    refine ⟨hleg, ?_, rfl, by simp, by simp, by simp, ?_, ?_, ?_, ?_⟩
    · split
      · exact (sampleBus_ran s).trans (toIdle_ran _)
      · exact ((sampleBus_ran s).trans (forceIdle_ran _)).trans (toIdle_ran _)
    all_goals
      by_cases h : (drawBusState s.env).1 = .idle
      · simp [sampleBus, h]
      · simp [sampleBus, h]
  · exact .inl ⟨hleg, if_neg hleg⟩

end Sys2Proof.Machine
end

