-- ==== Sys2Proof/Laws/RegisterAccess.lean ====
section
/-! SUPPORT. What one attempt, one register access and LOAD_CAL's register access can do: an attempt from Idle ends in
Idle or with a bus failure, and a register access always ends in Idle. -/

namespace Sys2Proof.Machine

/-- `t` is reached from `s` by register accesses that took at most `n` draws; `ATTEMPTS` may have changed too. -/
structure Accessed (n : Nat) (s t : State) : Prop where
  frame : OnlyTransport s t
  log : LogExtends s t
  drawn_le : t.env.drawn ≤ s.env.drawn + n
  drawn_ge : s.env.drawn ≤ t.env.drawn
  busyReads : t.env.busyReads = s.env.busyReads
  busyDrawn : t.env.busyDrawn = s.env.busyDrawn

theorem Ran.accessed {n : Nat} {s t : State} (h : Ran n s t) : Accessed n s t :=
  ⟨h.frame, h.log, h.drawn_le, h.drawn_ge, h.busyReads, h.busyDrawn⟩

theorem Accessed.refl (s : State) : Accessed 0 s s := (Ran.refl s).accessed

theorem Accessed.trans {n m : Nat} {s t u : State} (h : Accessed n s t) (k : Accessed m t u) : Accessed (n + m) s u where
  frame := h.frame.trans k.frame
  log := h.log.trans k.log
  drawn_le := by have := h.drawn_le; have := k.drawn_le; omega
  drawn_ge := Nat.le_trans h.drawn_ge k.drawn_ge
  busyReads := k.busyReads.trans h.busyReads
  busyDrawn := k.busyDrawn.trans h.busyDrawn

theorem Accessed.mono {n m : Nat} {s t : State} (h : Accessed n s t) (hnm : n ≤ m) : Accessed m s t :=
  { h with drawn_le := by have := h.drawn_le; omega }

theorem setAttempts_accessed (n : Nat) (s : State) : Accessed 0 s (setAttempts n s) :=
  ⟨rfl, ⟨[], by simp⟩, Nat.le_refl _, Nat.le_refl _, rfl, rfl⟩

/-! ### One attempt -/

/-- What a successful attempt leaves: Idle, with the attempt's events `l` appended and `LASTERR` kept. -/
structure EndsIdle (l : List BusEvent) (s t : State) : Prop where
  phase : t.status.phase = .idle
  dir : t.status.dir = .write
  rxEnd : t.status.rxEnd = false
  ack : t.status.ack = true
  busState : t.status.busState = .idle
  lastErr : t.status.lastErr = s.status.lastErr
  log : t.busLog = s.busLog ++ l

/-- A read attempt from Idle succeeds with the eight events of R142, or fails with a bus failure (R144). -/
theorem readOnce_spec (r : Byte) (s : State) (hs : s.status.phase = .idle) :
    Ran (5 * s.cfg.pollLimit + 5) s (readOnce r s).2 ∧
      ((∃ v, (readOnce r s).1 = .ok v ∧ EndsIdle (readEvents s.slaveAddr r v) s (readOnce r s).2) ∨
        EndsFailed (readOnce r s)) := by
  unfold readOnce
  -- START, write direction
  rcases startProc_spec s.slaveAddr .write s with ⟨h, _⟩ | ⟨_, hr1, _, h1⟩
  · exact absurd hs h
  rcases andThen_cases (startProc s.slaveAddr .write s) _ with ⟨_, hk1, e1⟩ | ⟨f, hk1, e1⟩ <;> rw [e1]
  swap
  · rcases h1 with ⟨h, _⟩ | ⟨⟨c, h, h'⟩, _⟩
    · rw [h] at hk1; cases hk1
    · exact ⟨hr1.mono (by omega), .inr ⟨c, by rw [h] at hk1; cases hk1; rfl, h'⟩⟩
  rcases h1 with ⟨_, hp1, hd1, hx1, ha1, hl1, hb1⟩ | ⟨⟨c, h, _⟩, _⟩
  swap
  · rw [h] at hk1; cases hk1
  generalize (startProc s.slaveAddr .write s).2 = s1 at *
  -- WRITE_BYTE
  rcases writeByteProc_spec r s1 with ⟨h, _⟩ | ⟨_, hr2, hd2, hx2, hb2, h2⟩
  · exact absurd ⟨hp1, hd1⟩ h
  rcases andThen_cases (writeByteProc r s1) _ with ⟨_, hk2, e2⟩ | ⟨f, hk2, e2⟩ <;> rw [e2]
  swap
  · rcases h2 with ⟨h, _⟩ | ⟨c, h, h'⟩
    · rw [h] at hk2; cases hk2
    · exact ⟨(hr1.trans hr2).mono (by rw [hr1.frame.cfg]; omega), .inr ⟨c, by rw [h] at hk2; cases hk2; rfl, h'⟩⟩
  rcases h2 with ⟨_, hp2, ha2, hl2⟩ | ⟨c, h, _⟩
  swap
  · rw [h] at hk2; cases hk2
  generalize (writeByteProc r s1).2 = s2 at *
  -- repeated START, read direction
  rcases startProc_spec s2.slaveAddr .read s2 with ⟨_, h, _⟩ | ⟨_, _, hr3, h3⟩
  · exact absurd hp2 h
  replace hr3 := hr3 hp2
  rcases andThen_cases (startProc s2.slaveAddr .read s2) _ with ⟨_, hk3, e3⟩ | ⟨f, hk3, e3⟩ <;> rw [e3]
  swap
  · rcases h3 with ⟨h, _⟩ | ⟨⟨c, h, h'⟩, _⟩
    · rw [h] at hk3; cases hk3
    · exact ⟨((hr1.trans hr2).trans hr3).mono (by rw [hr2.frame.cfg, hr1.frame.cfg]; omega), .inr ⟨c, by rw [h] at hk3; cases hk3; rfl, h'⟩⟩
  rcases h3 with ⟨_, hp3, hd3, hx3, ha3, hl3, hb3⟩ | ⟨⟨c, h, _⟩, _⟩
  swap
  · rw [h] at hk3; cases hk3
  generalize (startProc s2.slaveAddr .read s2).2 = s3 at *
  -- READ_BYTE with NACK
  rcases readByteProc_spec false s3 with ⟨h, _⟩ | ⟨_, hr4, hd4, h4⟩
  · exact absurd ⟨hp3, hd3, hx3⟩ h
  have hr14 := ((hr1.trans hr2).trans hr3).trans hr4
  rcases andThen_cases (readByteProc false s3) _ with ⟨v, hk4, e4⟩ | ⟨f, hk4, e4⟩ <;> rw [e4]
  swap
  · rcases h4 with ⟨_, h, _⟩ | ⟨⟨c, h, h'⟩, _⟩
    · rw [h] at hk4; cases hk4
    · exact ⟨hr14.mono (by rw [hr3.frame.cfg, hr2.frame.cfg, hr1.frame.cfg]; omega), .inr ⟨c, by rw [h] at hk4; cases hk4; rfl, h'⟩⟩
  rcases h4 with ⟨v', hv', hp4, hx4, hl4, ha4, hb4⟩ | ⟨⟨c, h, _⟩, _⟩
  swap
  · rw [h] at hk4; cases hk4
  rw [hk4] at hv'
  cases hv'
  generalize (readByteProc false s3).2 = s4 at *
  -- STOP
  rcases stopProc_spec s4 with ⟨h, _⟩ | ⟨_, hr5, hb5, h5⟩
  · exact absurd hp4 h
  have hack5 : (stopProc s4).2.status.ack = s4.status.ack := by
    rw [show stopProc s4 = stopPoll s4.cfg.pollLimit (emit .stopCond s4) from if_pos hp4]
    exact (stopPoll_spec _ _).2.2.1
  have hr := hr14.trans hr5
  rw [hr14.frame.cfg, hr3.frame.cfg, hr2.frame.cfg, hr1.frame.cfg] at hr
  replace hr := hr.mono (m := 5 * s.cfg.pollLimit + 5) (by omega)
  rcases andThen_cases (stopProc s4) (fun _ s5 => (Ended.ok v, s5)) with ⟨_, hk5, e5⟩ | ⟨f, hk5, e5⟩ <;> rw [e5]
  · rcases h5 with ⟨_, hp5, hd5, hx5, hbs5, hl5⟩ | ⟨⟨c, h, _⟩, _⟩
    · refine ⟨hr, .inl ⟨v, rfl, hp5, hd5, hx5, by rw [hack5, ha4, ha3], hbs5, by rw [hl5, hl4, hl3, hl2, hl1], ?_⟩⟩
      rw [hb5, hb4, hb3, hb2, hb1, hs, hp2, hr2.frame.slaveAddr, hr1.frame.slaveAddr]
      simp [readEvents]
    · rw [h] at hk5; cases hk5
  · rcases h5 with ⟨h, _⟩ | ⟨⟨c, h, h'⟩, _⟩
    · rw [h] at hk5; cases hk5
    · exact ⟨hr, .inr ⟨c, by rw [h] at hk5; cases hk5; rfl, h'⟩⟩

/-- A write attempt from Idle succeeds with the five events of R143, or fails with a bus failure (R144). -/
theorem writeOnce_spec (r x : Byte) (s : State) (hs : s.status.phase = .idle) :
    Ran (4 * s.cfg.pollLimit + 4) s (writeOnce r x s).2 ∧
      (((writeOnce r x s).1 = .ok () ∧ EndsIdle (writeEvents s.slaveAddr r x) s (writeOnce r x s).2) ∨
        EndsFailed (writeOnce r x s)) := by
  unfold writeOnce
  rcases startProc_spec s.slaveAddr .write s with ⟨h, _⟩ | ⟨_, hr1, _, h1⟩
  · exact absurd hs h
  rcases andThen_cases (startProc s.slaveAddr .write s) _ with ⟨_, hk1, e1⟩ | ⟨f, hk1, e1⟩ <;> rw [e1]
  swap
  · rcases h1 with ⟨h, _⟩ | ⟨⟨c, h, h'⟩, _⟩
    · rw [h] at hk1; cases hk1
    · exact ⟨hr1.mono (by omega), .inr ⟨c, by rw [h] at hk1; cases hk1; rfl, h'⟩⟩
  rcases h1 with ⟨_, hp1, hd1, hx1, ha1, hl1, hb1⟩ | ⟨⟨c, h, _⟩, _⟩
  swap
  · rw [h] at hk1; cases hk1
  generalize (startProc s.slaveAddr .write s).2 = s1 at *
  rcases writeByteProc_spec r s1 with ⟨h, _⟩ | ⟨_, hr2, hd2, hx2, hb2, h2⟩
  · exact absurd ⟨hp1, hd1⟩ h
  rcases andThen_cases (writeByteProc r s1) _ with ⟨_, hk2, e2⟩ | ⟨f, hk2, e2⟩ <;> rw [e2]
  swap
  · rcases h2 with ⟨h, _⟩ | ⟨c, h, h'⟩
    · rw [h] at hk2; cases hk2
    · exact ⟨(hr1.trans hr2).mono (by rw [hr1.frame.cfg]; omega), .inr ⟨c, by rw [h] at hk2; cases hk2; rfl, h'⟩⟩
  rcases h2 with ⟨_, hp2, ha2, hl2⟩ | ⟨c, h, _⟩
  swap
  · rw [h] at hk2; cases hk2
  generalize (writeByteProc r s1).2 = s2 at *
  rcases writeByteProc_spec x s2 with ⟨h, _⟩ | ⟨_, hr3, hd3, hx3, hb3, h3⟩
  · exact absurd ⟨hp2, hd2⟩ h
  rcases andThen_cases (writeByteProc x s2) _ with ⟨_, hk3, e3⟩ | ⟨f, hk3, e3⟩ <;> rw [e3]
  swap
  · rcases h3 with ⟨h, _⟩ | ⟨c, h, h'⟩
    · rw [h] at hk3; cases hk3
    · exact ⟨((hr1.trans hr2).trans hr3).mono (by rw [hr2.frame.cfg, hr1.frame.cfg]; omega), .inr ⟨c, by rw [h] at hk3; cases hk3; rfl, h'⟩⟩
  rcases h3 with ⟨_, hp3, ha3, hl3⟩ | ⟨c, h, _⟩
  swap
  · rw [h] at hk3; cases hk3
  generalize (writeByteProc x s2).2 = s3 at *
  rcases stopProc_spec s3 with ⟨h, _⟩ | ⟨_, hr4, hb4, h4⟩
  · exact absurd hp3 h
  have hack4 : (stopProc s3).2.status.ack = s3.status.ack := by
    rw [show stopProc s3 = stopPoll s3.cfg.pollLimit (emit .stopCond s3) from if_pos hp3]
    exact (stopPoll_spec _ _).2.2.1
  have hr13 := (hr1.trans hr2).trans hr3
  have hr := hr13.trans hr4
  rw [hr13.frame.cfg, hr2.frame.cfg, hr1.frame.cfg] at hr
  refine ⟨hr.mono (by omega), ?_⟩
  rcases h4 with ⟨h, hp4, hd4, hx4, hbs4, hl4⟩ | ⟨h, _⟩
  · refine .inl ⟨h, hp4, hd4, hx4, by rw [hack4, ha3], hbs4, by rw [hl4, hl3, hl2, hl1], ?_⟩
    rw [hb4, hb3, hb2, hb1, hs]
    simp [writeEvents]
  · exact .inr h

/-! ### One register access -/

/-- What an attempt procedure must do for the retry policy: from Idle, with the parameters `c` and the address `a`, it
takes at most `d` draws and ends in Idle with the events `ev v`, or fails with a bus failure. -/
def IsAttempt {α : Type} (c : Config) (a : Addr7) (d : Nat) (ev : α → List BusEvent) (once : State → Run α) : Prop :=
  ∀ s, s.status.phase = .idle → s.cfg = c → s.slaveAddr = a →
    Ran d s (once s).2 ∧ ((∃ v, (once s).1 = .ok v ∧ EndsIdle (ev v) s (once s).2) ∨ EndsFailed (once s))

theorem readOnce_isAttempt (c : Config) (a : Addr7) (r : Byte) :
    IsAttempt c a (5 * c.pollLimit + 5) (readEvents a r) (readOnce r) := by
  rintro s hs rfl rfl
  exact readOnce_spec r s hs

theorem writeOnce_isAttempt (c : Config) (a : Addr7) (r x : Byte) :
    IsAttempt c a (4 * c.pollLimit + 4) (fun _ => writeEvents a r x) (writeOnce r x) := by
  rintro s hs rfl rfl
  obtain ⟨h, h'⟩ := writeOnce_spec r x s hs
  exact ⟨h, h'.imp_left fun h => ⟨(), h⟩⟩

/-- A register access with `m` attempts left, the next being attempt `n`: it ends in Idle (R140), either with the value
of an attempt that succeeded or exhausted, having recorded the attempt's number and the last bus failure. -/
theorem regAccessFrom_spec {α : Type} {c : Config} {a : Addr7} {d : Nat} {ev : α → List BusEvent} {once : State → Run α}
    (ho : IsAttempt c a d ev once) (m n : Nat) (s : State) (hs : s.status.phase = .idle) (hc : s.cfg = c)
    (ha : s.slaveAddr = a) :
    Accessed (m * (d + 1)) s (regAccessFrom once m n s).2 ∧
      (regAccessFrom once m n s).2.status.phase = .idle ∧
      (1 ≤ m → (regAccessFrom once m n s).2.status.dir = .write ∧ (regAccessFrom once m n s).2.status.rxEnd = false ∧
        (regAccessFrom once m n s).2.status.busState = .idle) ∧
      ((∃ v j l, (regAccessFrom once m n s).1 = .ok v ∧ n ≤ j ∧ j < n + m ∧
          (regAccessFrom once m n s).2.status.attempts = BitVec.ofNat 4 j ∧
          (regAccessFrom once m n s).2.status.ack = true ∧
          (regAccessFrom once m n s).2.busLog = s.busLog ++ l ++ ev v ∧
          (j = n → l = [] ∧ (regAccessFrom once m n s).2.status.lastErr = s.status.lastErr) ∧
          (n < j → (regAccessFrom once m n s).2.status.lastErr ≠ none)) ∨
        ((regAccessFrom once m n s).1 = .raised .accessExhausted ∧
          (m = 0 → (regAccessFrom once m n s).2 = s) ∧
          (1 ≤ m → (regAccessFrom once m n s).2.status.attempts = BitVec.ofNat 4 (n + m - 1) ∧
            (regAccessFrom once m n s).2.status.lastErr ≠ none))) := by
  induction m generalizing n s with
  | zero => exact ⟨(Accessed.refl s).mono (by omega), hs, by omega, .inr ⟨rfl, fun _ => rfl, by omega⟩⟩
  | succ m ih =>
    obtain ⟨hran, hends⟩ := ho (setAttempts n s) (by simpa using hs) (by simpa using hc) (by simpa using ha)
    have h0 := (setAttempts_accessed n s).trans hran.accessed
    have hatt := hran.attempts
    unfold regAccessFrom
    rcases hends with ⟨v, hv, hi⟩ | ⟨b, hb, hp, hl⟩
    · rcases hone : once (setAttempts n s) with ⟨e, t⟩
      rw [hone] at hv hi h0 hatt
      simp only at hv hi h0 hatt
      subst hv
      simp only
      refine ⟨h0.mono (by rw [Nat.succ_mul]; omega), hi.phase, fun _ => ⟨hi.dir, hi.rxEnd, hi.busState⟩,
        .inl ⟨v, n, [], rfl, Nat.le_refl _, by omega, by rw [hatt]; simp, hi.ack, by rw [hi.log]; simp, ?_, by omega⟩⟩
      intro _
      exact ⟨rfl, by rw [hi.lastErr]; simp⟩
    · rcases hone : once (setAttempts n s) with ⟨e, t⟩
      rw [hone] at hb hp hl h0 hatt
      simp only at hb hp hl h0 hatt
      subst hb
      simp only
      rcases recoverProc_spec t with ⟨h, _⟩ | ⟨_, hrr, _, hp', hd', hx', hbs', _, hle', _⟩
      · exact absurd (.inr hp) h
      have h1 := h0.trans hrr.accessed
      have hratt : (recoverProc t).2.status.attempts = BitVec.ofNat 4 n := by rw [hrr.attempts, hatt]; simp
      have hrle : (recoverProc t).2.status.lastErr ≠ none := by rw [hle', hl]; simp
      obtain ⟨i1, i2, i3, i4⟩ := ih (n + 1) (recoverProc t).2 hp' (by rw [h1.frame.cfg, hc]) (by rw [h1.frame.slaveAddr, ha])
      refine ⟨(h1.trans i1).mono (by rw [Nat.succ_mul]; omega), i2, ?_, ?_⟩
      · intro _
        cases m with
        | zero => exact ⟨hd', hx', hbs'⟩
        | succ m => exact i3 (by omega)
      · rcases i4 with ⟨v, j, l, hv, hj1, hj2, hja, hjk, hjl, hj3, hj4⟩ | ⟨hv, hz, hnz⟩
        · obtain ⟨l0, hl0⟩ := h1.log
          refine .inl ⟨v, j, l0 ++ l, hv, by omega, by omega, hja, hjk, by rw [hjl, hl0]; simp, by omega, fun _ => ?_⟩
          by_cases hj : j = n + 1
          · rw [(hj3 hj).2]; exact hrle
          · exact hj4 (by omega)
        · refine .inr ⟨hv, by omega, fun _ => ?_⟩
          cases m with
          | zero => rw [hz rfl]; exact ⟨hratt, hrle⟩
          | succ m =>
            obtain ⟨q1, q2⟩ := hnz (by omega)
            exact ⟨by rw [q1]; congr 1; omega, q2⟩

/-- One register access that reads a sensor register (R140, R142). -/
theorem readSensor_spec (r : Byte) (s : State) (hs : s.status.phase = .idle) (hR : 1 ≤ s.cfg.retryLimit) :
    Accessed (s.cfg.retryLimit * (5 * s.cfg.pollLimit + 6)) s (readSensor r s).2 ∧
      (readSensor r s).2.status.phase = .idle ∧ (readSensor r s).2.status.dir = .write ∧
      (readSensor r s).2.status.rxEnd = false ∧ (readSensor r s).2.status.busState = .idle ∧
      ((∃ v j l, (readSensor r s).1 = .ok v ∧ 1 ≤ j ∧ j ≤ s.cfg.retryLimit ∧
          (readSensor r s).2.status.attempts = BitVec.ofNat 4 j ∧ (readSensor r s).2.status.ack = true ∧
          (readSensor r s).2.busLog = s.busLog ++ l ++ readEvents s.slaveAddr r v ∧
          (j = 1 → l = [] ∧ (readSensor r s).2.status.lastErr = s.status.lastErr) ∧
          (1 < j → (readSensor r s).2.status.lastErr ≠ none)) ∨
        ((readSensor r s).1 = .raised .accessExhausted ∧
          (readSensor r s).2.status.attempts = BitVec.ofNat 4 s.cfg.retryLimit ∧
          (readSensor r s).2.status.lastErr ≠ none)) := by
  obtain ⟨h1, h2, h3, h4⟩ :=
    regAccessFrom_spec (readOnce_isAttempt s.cfg s.slaveAddr r) s.cfg.retryLimit 1 s hs rfl rfl
  refine ⟨h1, h2, (h3 hR).1, (h3 hR).2.1, (h3 hR).2.2, ?_⟩
  rcases h4 with ⟨v, j, l, hv, q1, q2, q⟩ | ⟨hv, _, q⟩
  · exact .inl ⟨v, j, l, hv, q1, by omega, q⟩
  · refine .inr ⟨hv, ?_, (q hR).2⟩
    rw [show (readSensor r s).2.status.attempts = _ from (q hR).1]
    congr 1
    omega

/-- A register access raises nothing but ACCESS_EXHAUSTED (R140). -/
theorem regAccessFrom_raised {α : Type} {once : State → Run α} {m n : Nat} {s : State} {f : Failure}
    (h : (regAccessFrom once m n s).1 = .raised f) : f = .accessExhausted := by
  induction m generalizing n s with
  | zero => cases h; rfl
  | succ m ih =>
    unfold regAccessFrom at h
    split at h
    · cases h
    · exact ih h

theorem readSensor_raised {r : Byte} {s : State} {f : Failure} (h : (readSensor r s).1 = .raised f) :
    f = .accessExhausted := regAccessFrom_raised h

/-- A register access ends in Idle even where no attempt is allowed. -/
theorem readSensor_phase (r : Byte) (s : State) (hs : s.status.phase = .idle) :
    (readSensor r s).2.status.phase = .idle :=
  (regAccessFrom_spec (readOnce_isAttempt s.cfg s.slaveAddr r) s.cfg.retryLimit 1 s hs rfl rfl).2.1

/-- What a register access changes, even where no attempt is allowed. -/
theorem readSensor_accessed (r : Byte) (s : State) (hs : s.status.phase = .idle) :
    Accessed (s.cfg.retryLimit * (5 * s.cfg.pollLimit + 6)) s (readSensor r s).2 :=
  (regAccessFrom_spec (readOnce_isAttempt s.cfg s.slaveAddr r) s.cfg.retryLimit 1 s hs rfl rfl).1

/-- LOAD_CAL's register access is a register access with exhaustion renamed (R163, R164). -/
theorem readCal_eq (r : Byte) (s : State) :
    (∃ v, (readSensor r s).1 = .ok v ∧ readCal r s = readSensor r s) ∨
      ((readSensor r s).1 = .raised .accessExhausted ∧ readCal r s = raise .calReadFailure (readSensor r s).2) := by
  have h := @readSensor_raised r s
  unfold readCal
  rcases hrs : readSensor r s with ⟨v | f, t⟩
  · exact .inl ⟨v, rfl, rfl⟩
  · rw [hrs] at h
    obtain rfl := h rfl
    exact .inr ⟨rfl, rfl⟩

end Sys2Proof.Machine
end

