-- ==== Sys2Proof/Laws/Completion.lean ====
section
/-! SUPPORT. Completion, sequences of register accesses, and what LOAD_CAL and READ_RAW do in terms of them. -/

namespace Sys2Proof.Machine

/-! ### Completion (R105) -/

@[simp] theorem opened_phase (s : State) : (opened s).status.phase = s.status.phase := rfl
@[simp] theorem opened_dir (s : State) : (opened s).status.dir = s.status.dir := rfl
@[simp] theorem opened_rxEnd (s : State) : (opened s).status.rxEnd = s.status.rxEnd := rfl
@[simp] theorem opened_calValid (s : State) : (opened s).status.calValid = s.status.calValid := rfl
@[simp] theorem opened_attempts (s : State) : (opened s).status.attempts = 0 := rfl
@[simp] theorem opened_lastErr (s : State) : (opened s).status.lastErr = none := rfl
@[simp] theorem opened_cfg (s : State) : (opened s).cfg = s.cfg := rfl
@[simp] theorem opened_env (s : State) : (opened s).env = s.env := rfl
@[simp] theorem opened_busLog (s : State) : (opened s).busLog = s.busLog := rfl
@[simp] theorem opened_slaveAddr (s : State) : (opened s).slaveAddr = s.slaveAddr := rfl

/-- Completion writes `RESULT` and `BUSY` over what the command's body leaves of the opened state. -/
theorem complete_eq {α : Type} (body : State → Run α) (s : State) :
    complete body s =
      { (body (opened s)).2 with
        status := { (body (opened s)).2.status with result := (body (opened s)).1.result, busy := false } } := rfl

theorem complete_busy {α : Type} (body : State → Run α) (s : State) : (complete body s).status.busy = false := rfl

theorem complete_result {α : Type} (body : State → Run α) (s : State) :
    (complete body s).status.result = (body (opened s)).1.result := rfl

/-- A body that raises without any other effect completes with its code alone (60_exceptions.md R201). -/
theorem complete_raise {α : Type} (f : Failure) (s : State) :
    complete (α := α) (raise f) s = failedCheck f s := rfl

/-- A body that raises at this state without any other effect. -/
theorem complete_of_raise {α : Type} {body : State → Run α} {f : Failure} {s : State}
    (h : body (opened s) = raise f (opened s)) : complete body s = failedCheck f s := by
  rw [complete_eq, h]
  rfl

/-! ### Sequences of register accesses -/

theorem sensorReads_nil (s : State) : sensorReads [] s = (some [], s) := rfl

theorem sensorReads_ok {r : Byte} {rest : List Byte} {s : State} {v : Byte} (h : (readSensor r s).1 = .ok v) :
    sensorReads (r :: rest) s =
      ((sensorReads rest (readSensor r s).2).1.map (v :: ·), (sensorReads rest (readSensor r s).2).2) := by
  rcases hr : readSensor r s with ⟨e, t⟩
  rw [hr] at h
  simp only at h
  subst h
  rw [sensorReads, hr]

theorem sensorReads_raised {r : Byte} {rest : List Byte} {s : State} {f : Failure}
    (h : (readSensor r s).1 = .raised f) : sensorReads (r :: rest) s = (none, (readSensor r s).2) := by
  rcases hr : readSensor r s with ⟨e, t⟩
  rw [hr] at h
  simp only at h
  subst h
  rw [sensorReads, hr]

/-- A sequence of register accesses from Idle ends in Idle; where one of them is exhausted, `ATTEMPTS` and `LASTERR`
record it. -/
theorem sensorReads_spec (rs : List Byte) (s : State) (hs : s.status.phase = .idle) (hR : 1 ≤ s.cfg.retryLimit) :
    Accessed (rs.length * (s.cfg.retryLimit * (5 * s.cfg.pollLimit + 6))) s (sensorReads rs s).2 ∧
      (sensorReads rs s).2.status.phase = .idle ∧
      (rs ≠ [] → (sensorReads rs s).2.status.dir = .write ∧ (sensorReads rs s).2.status.rxEnd = false ∧
        ∃ j, 1 ≤ j ∧ j ≤ s.cfg.retryLimit ∧ (sensorReads rs s).2.status.attempts = BitVec.ofNat 4 j) ∧
      ((sensorReads rs s).1 = none → (sensorReads rs s).2.status.attempts = BitVec.ofNat 4 s.cfg.retryLimit ∧
        (sensorReads rs s).2.status.lastErr ≠ none) ∧
      (∀ vs, (sensorReads rs s).1 = some vs → vs.length = rs.length) := by
  induction rs generalizing s with
  | nil => exact ⟨(Accessed.refl s).mono (by omega), hs, by simp, by simp [sensorReads], by simp [sensorReads]⟩
  | cons r rest ih =>
    obtain ⟨hacc, hp, hd, hx, _, h⟩ := readSensor_spec r s hs hR
    rcases h with ⟨v, j, _, hv, hj1, hj2, hj, _⟩ | ⟨hf, ha, hl⟩
    · rw [sensorReads_ok hv]
      obtain ⟨i1, i2, i3, i4, i5⟩ := ih (readSensor r s).2 hp (by rw [hacc.frame.cfg]; exact hR)
      rw [hacc.frame.cfg] at i1 i3 i4
      refine ⟨(hacc.trans i1).mono (by simp [Nat.succ_mul]; omega), i2, fun _ => ?_, ?_, ?_⟩
      · cases rest with
        | nil => exact ⟨hd, hx, j, hj1, hj2, hj⟩
        | cons r' rest => exact i3 (by simp)
      · intro hn
        exact i4 (by simpa using hn)
      · intro vs hvs
        simp only [Option.map_eq_some_iff] at hvs
        obtain ⟨ws, hws, rfl⟩ := hvs
        simp [i5 ws hws]
    · rw [sensorReads_raised hf]
      refine ⟨hacc.mono (by simp [Nat.succ_mul]), hp, fun _ => ⟨hd, hx, s.cfg.retryLimit, hR, Nat.le_refl _, ha⟩,
        fun _ => ⟨ha, hl⟩, by simp⟩

/-- A sequence of register accesses from Idle ends in Idle even where no attempt is allowed. -/
theorem sensorReads_phase (rs : List Byte) (s : State) (hs : s.status.phase = .idle) :
    (sensorReads rs s).2.status.phase = .idle := by
  induction rs generalizing s with
  | nil => exact hs
  | cons r rest ih =>
    cases h : (readSensor r s).1 with
    | ok v => rw [sensorReads_ok h]; exact ih _ (readSensor_phase r s hs)
    | raised f => rw [sensorReads_raised h]; exact readSensor_phase r s hs

/-- What a sequence of register accesses from Idle changes, even where no attempt is allowed. -/
theorem sensorReads_accessed (rs : List Byte) (s : State) (hs : s.status.phase = .idle) :
    Accessed (rs.length * (s.cfg.retryLimit * (5 * s.cfg.pollLimit + 6))) s (sensorReads rs s).2 := by
  induction rs generalizing s with
  | nil => exact (Accessed.refl s).mono (by omega)
  | cons r rest ih =>
    have h1 := readSensor_accessed r s hs
    cases h : (readSensor r s).1 with
    | ok v =>
      rw [sensorReads_ok h]
      have h2 := ih _ (readSensor_phase r s hs)
      rw [h1.frame.cfg] at h2
      exact (h1.trans h2).mono (by simp [Nat.succ_mul]; omega)
    | raised f => rw [sensorReads_raised h]; exact h1.mono (by simp [Nat.succ_mul])

/-- The registers LOAD_CAL reads, in its order (R161). -/
def calRegs (c : Config) : List Byte :=
  [regPlus c.calT1Reg 0, regPlus c.calT1Reg 1, regPlus c.calT2Reg 0, regPlus c.calT2Reg 1, c.calT3Reg]

/-- The registers READ_RAW reads, in its order (R182). -/
def rawRegs (c : Config) : List Byte := [regPlus c.adcReg 0, regPlus c.adcReg 1, regPlus c.adcReg 2]

/-- One more register access of LOAD_CAL, in terms of the sequence. -/
theorem readCal_andThen {β : Type} (r : Byte) (s : State) (rest : Byte → State → Run β) :
    (∃ v, (readSensor r s).1 = .ok v ∧ andThen (readCal r s) rest = rest v (readSensor r s).2) ∨
      (∃ f, (readSensor r s).1 = .raised f ∧ andThen (readCal r s) rest = raise .calReadFailure (readSensor r s).2) := by
  rcases readCal_eq r s with ⟨v, hv, h⟩ | ⟨hf, h⟩
  · refine .inl ⟨v, hv, ?_⟩
    rw [h]
    unfold andThen
    rw [hv]
  · exact .inr ⟨_, hf, by rw [h]; rfl⟩

/-- LOAD_CAL's reads and commit in terms of the sequence: all or nothing (R163, R164). -/
theorem loadCoefficients_eq (s : State) :
    ((sensorReads (calRegs s.cfg) s).1 = none ∧
        loadCoefficients s = raise .calReadFailure (sensorReads (calRegs s.cfg) s).2) ∨
      (∃ b0 b1 b2 b3 b4, (sensorReads (calRegs s.cfg) s).1 = some [b0, b1, b2, b3, b4] ∧
        loadCoefficients s =
          (.ok (), commitCal (pairLE b0 b1) (pairLE b2 b3) b4 (sensorReads (calRegs s.cfg) s).2)) := by
  unfold loadCoefficients calRegs
  rcases readCal_andThen (regPlus s.cfg.calT1Reg 0) s _ with ⟨b0, h0, e⟩ | ⟨f, h0, e⟩ <;> rw [e]
  swap
  · exact .inl (by rw [sensorReads_raised h0]; exact ⟨rfl, rfl⟩)
  rw [sensorReads_ok h0]
  generalize (readSensor (regPlus s.cfg.calT1Reg 0) s).2 = s1
  rcases readCal_andThen (regPlus s.cfg.calT1Reg 1) s1 _ with ⟨b1, h1, e⟩ | ⟨f, h1, e⟩ <;> rw [e]
  swap
  · exact .inl (by rw [sensorReads_raised h1]; exact ⟨rfl, rfl⟩)
  rw [sensorReads_ok h1]
  generalize (readSensor (regPlus s.cfg.calT1Reg 1) s1).2 = s2
  rcases readCal_andThen (regPlus s.cfg.calT2Reg 0) s2 _ with ⟨b2, h2, e⟩ | ⟨f, h2, e⟩ <;> rw [e]
  swap
  · exact .inl (by rw [sensorReads_raised h2]; exact ⟨rfl, rfl⟩)
  rw [sensorReads_ok h2]
  generalize (readSensor (regPlus s.cfg.calT2Reg 0) s2).2 = s3
  rcases readCal_andThen (regPlus s.cfg.calT2Reg 1) s3 _ with ⟨b3, h3, e⟩ | ⟨f, h3, e⟩ <;> rw [e]
  swap
  · exact .inl (by rw [sensorReads_raised h3]; exact ⟨rfl, rfl⟩)
  rw [sensorReads_ok h3]
  generalize (readSensor (regPlus s.cfg.calT2Reg 1) s3).2 = s4
  rcases readCal_andThen s.cfg.calT3Reg s4 _ with ⟨b4, h4, e⟩ | ⟨f, h4, e⟩ <;> rw [e]
  swap
  · exact .inl (by rw [sensorReads_raised h4]; exact ⟨rfl, rfl⟩)
  rw [sensorReads_ok h4]
  exact .inr ⟨b0, b1, b2, b3, b4, rfl, rfl⟩

/-- READ_RAW's reads and commit in terms of the sequence: all or nothing (R183). -/
theorem readRawSample_eq (s : State) :
    ((sensorReads (rawRegs s.cfg) s).1 = none ∧
        readRawSample s = raise .accessExhausted (sensorReads (rawRegs s.cfg) s).2) ∨
      (∃ m l x, (sensorReads (rawRegs s.cfg) s).1 = some [m, l, x] ∧
        readRawSample s = (.ok (), setRaw (rawAssemble m l x) (sensorReads (rawRegs s.cfg) s).2)) := by
  unfold readRawSample rawRegs
  rcases andThen_cases (readSensor (regPlus s.cfg.adcReg 0) s) _ with ⟨m, h0, e⟩ | ⟨f, h0, e⟩ <;> rw [e]
  swap
  · exact .inl (by rw [sensorReads_raised h0, readSensor_raised h0]; exact ⟨rfl, rfl⟩)
  rw [sensorReads_ok h0]
  generalize (readSensor (regPlus s.cfg.adcReg 0) s).2 = s1
  rcases andThen_cases (readSensor (regPlus s.cfg.adcReg 1) s1) _ with ⟨l, h1, e⟩ | ⟨f, h1, e⟩ <;> rw [e]
  swap
  · exact .inl (by rw [sensorReads_raised h1, readSensor_raised h1]; exact ⟨rfl, rfl⟩)
  rw [sensorReads_ok h1]
  generalize (readSensor (regPlus s.cfg.adcReg 1) s1).2 = s2
  rcases andThen_cases (readSensor (regPlus s.cfg.adcReg 2) s2) _ with ⟨x, h2, e⟩ | ⟨f, h2, e⟩ <;> rw [e]
  swap
  · exact .inl (by rw [sensorReads_raised h2, readSensor_raised h2]; exact ⟨rfl, rfl⟩)
  rw [sensorReads_ok h2]
  exact .inr ⟨m, l, x, rfl, rfl⟩

end Sys2Proof.Machine
end

