-- ==== Sys2Proof/Laws/Encoding.lean ====
section
/-! SUPPORT. The command word and its fields as numbers: each field of `commandWord` is read back, and a word is its
fields. -/

namespace Sys2Proof

/-- Concatenation as a number. -/
theorem toNat_append_eq {n m : Nat} (x : BitVec n) (y : BitVec m) : (x ++ y).toNat = x.toNat * 2 ^ m + y.toNat := by
  rw [BitVec.toNat_append, ← Nat.shiftLeft_add_eq_or_of_lt y.isLt, Nat.shiftLeft_eq]

theorem commandWord_toNat (o : BitVec 4) (r a : Byte) :
    (commandWord o r a).toNat = o.toNat * 2 ^ 28 + r.toNat * 2 ^ 8 + a.toNat := by
  unfold commandWord
  rw [toNat_append_eq, toNat_append_eq, toNat_append_eq]
  simp
  omega

theorem opField_toNat (w : Word) : (opField w).toNat = w.toNat / 2 ^ 28 := by
  have := w.isLt
  simp only [opField, BitVec.extractLsb'_toNat, Nat.shiftRight_eq_div_pow]
  omega

theorem rsvField_toNat (w : Word) : (rsvField w).toNat = w.toNat / 2 ^ 16 % 2 ^ 12 := by
  simp only [rsvField, BitVec.extractLsb'_toNat, Nat.shiftRight_eq_div_pow]

theorem regField_toNat (w : Word) : (regField w).toNat = w.toNat / 2 ^ 8 % 2 ^ 8 := by
  simp only [regField, BitVec.extractLsb'_toNat, Nat.shiftRight_eq_div_pow]

theorem argField_toNat (w : Word) : (argField w).toNat = w.toNat % 2 ^ 8 := by
  simp [argField, BitVec.extractLsb'_toNat]

@[simp] theorem opField_commandWord (o : BitVec 4) (r a : Byte) : opField (commandWord o r a) = o := by
  apply BitVec.eq_of_toNat_eq
  rw [opField_toNat, commandWord_toNat]
  have := o.isLt; have := r.isLt; have := a.isLt
  omega

@[simp] theorem rsvField_commandWord (o : BitVec 4) (r a : Byte) : rsvField (commandWord o r a) = 0 := by
  apply BitVec.eq_of_toNat_eq
  rw [rsvField_toNat, commandWord_toNat]
  have := o.isLt; have := r.isLt; have := a.isLt
  simp
  omega

@[simp] theorem regField_commandWord (o : BitVec 4) (r a : Byte) : regField (commandWord o r a) = r := by
  apply BitVec.eq_of_toNat_eq
  rw [regField_toNat, commandWord_toNat]
  have := o.isLt; have := r.isLt; have := a.isLt
  omega

@[simp] theorem argField_commandWord (o : BitVec 4) (r a : Byte) : argField (commandWord o r a) = a := by
  apply BitVec.eq_of_toNat_eq
  rw [argField_toNat, commandWord_toNat]
  have := o.isLt; have := r.isLt; have := a.isLt
  omega

/-- A word whose reserved field is 0 is its other three fields. -/
theorem commandWord_of_fields (w : Word) (h : rsvField w = 0) :
    commandWord (opField w) (regField w) (argField w) = w := by
  apply BitVec.eq_of_toNat_eq
  have h' := congrArg BitVec.toNat h
  rw [rsvField_toNat] at h'
  rw [commandWord_toNat, opField_toNat, regField_toNat, argField_toNat]
  simp at h'
  omega

/-- Bits [7:1] of a word are those of its `ARG`. -/
theorem extract_7_1_of_arg (w : Word) : w.extractLsb' 1 7 = (argField w).extractLsb' 1 7 := by
  apply BitVec.eq_of_toNat_eq
  simp only [argField, BitVec.extractLsb'_toNat, Nat.shiftRight_eq_div_pow]
  omega

/-- Bit [0] of a word is that of its `ARG`. -/
theorem bit_0_of_arg (w : Word) : w.getLsbD 0 = (argField w).getLsbD 0 := by
  simp [argField]

end Sys2Proof
end

