-- ==== Sys2Proof/Laws/PerInstr.lean ====
section
/-! SUPPORT. What holds of every command as syntax, one lemma per constructor: its encoding is a legal command word that
carries its opcode, with the reserved field 0. -/

namespace Sys2Proof.Laws

/-- The word of an encoded command satisfies every line of R86's check, carries the opcode of R81 and has its reserved
field 0 (30_encoding.md R80, R88). -/
def EncodesLegally.Statement (i : Instr) : Prop :=
  wellFormed (encode i) = true ∧ opField (encode i) = i.opcode ∧ rsvField (encode i) = 0

theorem EncodesLegally.start (a : Addr7) (d : Dir) : EncodesLegally.Statement (.start a d) := by
  simp [EncodesLegally.Statement, encode, Instr.opcode, wellFormed, opLegal, rsvLegal, regLegal, ackArgLegal, noArgLegal]

theorem EncodesLegally.writeByte (b : Byte) : EncodesLegally.Statement (.writeByte b) := by
  simp [EncodesLegally.Statement, encode, Instr.opcode, wellFormed, opLegal, rsvLegal, regLegal, ackArgLegal, noArgLegal]

theorem EncodesLegally.readByte (k : Bool) : EncodesLegally.Statement (.readByte k) := by
  cases k <;> exact ⟨by decide, by decide, by decide⟩

theorem EncodesLegally.stop : EncodesLegally.Statement .stop :=
  ⟨by decide, by decide, by decide⟩

theorem EncodesLegally.recover : EncodesLegally.Statement .recover :=
  ⟨by decide, by decide, by decide⟩

theorem EncodesLegally.readReg (r : Byte) : EncodesLegally.Statement (.readReg r) := by
  simp [EncodesLegally.Statement, encode, Instr.opcode, wellFormed, opLegal, rsvLegal, regLegal, ackArgLegal, noArgLegal]

theorem EncodesLegally.writeReg (r x : Byte) : EncodesLegally.Statement (.writeReg r x) := by
  simp [EncodesLegally.Statement, encode, Instr.opcode, wellFormed, opLegal, rsvLegal, regLegal, ackArgLegal, noArgLegal]

theorem EncodesLegally.loadCal : EncodesLegally.Statement .loadCal :=
  ⟨by decide, by decide, by decide⟩

theorem EncodesLegally.readRaw : EncodesLegally.Statement .readRaw :=
  ⟨by decide, by decide, by decide⟩

theorem EncodesLegally.calcTemp : EncodesLegally.Statement .calcTemp :=
  ⟨by decide, by decide, by decide⟩

end Sys2Proof.Laws
end

