-- ==== Sys2Proof/Laws/Scripted.lean ====
section
/-! SUPPORT. The procedures on an ENV whose listed answers go well at once: every poll 1, every acknowledge bit ACK, every
bus-state sample Idle. Each lemma is the result of the procedure in full. -/

namespace Sys2Proof.Machine

/-- START from Idle. -/
theorem startProc_well {a : Addr7} {d : Dir} {s : State} {bs : List BusState} {rs as : List Bool}
    (hp : s.status.phase = .idle) (hP : 1 ≤ s.cfg.pollLimit) (hb : s.env.busStates = .idle :: bs)
    (hr : s.env.ready = true :: rs) (ha : s.env.acks = true :: as) :
    startProc a d s = (.ok (),
      { s with
        env := { s.env with ready := rs, acks := as, busStates := bs, drawn := s.env.drawn + 3 }
        busLog := s.busLog ++ [.startCond, .addrByte (addressByte a d)]
        status := { s.status with busState := .idle, phase := .dataPhase, dir := d, rxEnd := false, ack := true } }) := by
  simp only [startProc, hp, sampleBus, drawBusState_listed hb, if_true, addressSlave, awaitAck, waitFor]
  simp [waitReady_listed (l := rs) .addrDone hP (e := { s.env with busStates := bs, drawn := s.env.drawn + 1 })
      (by simpa using hr),
    drawAck_listed (e := { s.env with ready := rs, busStates := bs, drawn := s.env.drawn + 1 + 1 }) ha,
    sampleAck, andThen, setBusState, setEnv, emit, setPhase, setDir, setRxEnd, setAck]

/-- A repeated START. -/
theorem startProc_repeated_well {a : Addr7} {d : Dir} {s : State} {rs as : List Bool}
    (hp : s.status.phase = .dataPhase) (hP : 1 ≤ s.cfg.pollLimit)
    (hr : s.env.ready = true :: rs) (ha : s.env.acks = true :: as) :
    startProc a d s = (.ok (),
      { s with
        env := { s.env with ready := rs, acks := as, drawn := s.env.drawn + 2 }
        busLog := s.busLog ++ [.repStart, .addrByte (addressByte a d)]
        status := { s.status with phase := .dataPhase, dir := d, rxEnd := false, ack := true } }) := by
  simp only [startProc, hp, addressSlave, awaitAck, waitFor]
  simp [waitReady_listed (l := rs) .addrDone hP (e := s.env) (by simpa using hr),
    drawAck_listed (e := { s.env with ready := rs, drawn := s.env.drawn + 1 }) ha,
    sampleAck, andThen, setEnv, emit, setPhase, setDir, setRxEnd, setAck]

/-- WRITE_BYTE. -/
theorem writeByteProc_well {b : Byte} {s : State} {rs as : List Bool} (hp : s.status.phase = .dataPhase)
    (hd : s.status.dir = .write) (hP : 1 ≤ s.cfg.pollLimit)
    (hr : s.env.ready = true :: rs) (ha : s.env.acks = true :: as) :
    writeByteProc b s = (.ok (),
      { s with
        env := { s.env with ready := rs, acks := as, drawn := s.env.drawn + 2 }
        busLog := s.busLog ++ [.txByte b]
        status := { s.status with ack := true } }) := by
  unfold writeByteProc
  rw [if_pos ⟨hp, hd⟩]
  simp only [awaitAck, waitFor]
  simp [waitReady_listed (l := rs) .txDone hP (e := s.env) (by simpa using hr),
    drawAck_listed (e := { s.env with ready := rs, drawn := s.env.drawn + 1 }) ha, sampleAck, setEnv, emit, setAck]

/-- READ_BYTE with a NACK. -/
theorem readByteProc_well {s : State} {rs : List Bool} {v : Byte} {vs : List Byte} (hp : s.status.phase = .dataPhase)
    (hd : s.status.dir = .read) (hx : s.status.rxEnd = false) (hP : 1 ≤ s.cfg.pollLimit)
    (hr : s.env.ready = true :: rs) (hv : s.env.rxBytes = v :: vs) :
    readByteProc false s = (.ok v,
      { s with
        env := { s.env with ready := rs, rxBytes := vs, drawn := s.env.drawn + 2 }
        busLog := s.busLog ++ [.rxByte v, .masterAck false]
        status := { s.status with rxEnd := true } }) := by
  unfold readByteProc
  rw [if_pos ⟨hp, hd, hx⟩]
  simp only [waitFor]
  simp [waitReady_listed (l := rs) .rxDone hP (e := s.env) (by simpa using hr),
    drawRxByte_listed (e := { s.env with ready := rs, drawn := s.env.drawn + 1 }) hv, setEnv, emit, setRxEnd]

/-- STOP. -/
theorem stopProc_well {s : State} {bs : List BusState} (hp : s.status.phase = .dataPhase) (hP : 1 ≤ s.cfg.pollLimit)
    (hb : s.env.busStates = .idle :: bs) :
    stopProc s = (.ok (),
      { s with
        env := { s.env with busStates := bs, drawn := s.env.drawn + 1 }
        busLog := s.busLog ++ [.stopCond]
        status := { s.status with busState := .idle, phase := .idle, dir := .write, rxEnd := false } }) := by
  unfold stopProc
  rw [if_pos hp]
  obtain ⟨n, hn⟩ : ∃ n, s.cfg.pollLimit = n + 1 := ⟨s.cfg.pollLimit - 1, by omega⟩
  rw [hn]
  simp [stopPoll, sampleBus, drawBusState_listed (e := s.env) hb, toIdle, setBusState, setEnv, emit, setPhase, setDir,
    setRxEnd]

/-- What a read attempt that goes well leaves. -/
def afterRead (r v : Byte) (s : State) : State :=
  { s with
    env := consumed 4 3 2 1 s.env
    busLog := s.busLog ++ readEvents s.slaveAddr r v
    status := { s.status with busState := .idle, phase := .idle, dir := .write, rxEnd := false, ack := true } }

/-- One read attempt (R142). -/
theorem readOnce_well {r v : Byte} {s : State} {rs as : List Bool} {bs : List BusState} {vs : List Byte}
    (hp : s.status.phase = .idle) (hP : 1 ≤ s.cfg.pollLimit)
    (hr : s.env.ready = true :: true :: true :: true :: rs) (ha : s.env.acks = true :: true :: true :: as)
    (hb : s.env.busStates = .idle :: .idle :: bs) (hv : s.env.rxBytes = v :: vs) :
    readOnce r s = (.ok v, afterRead r v s) := by
  unfold readOnce
  rw [startProc_well hp hP hb hr ha, andThen_ok]
  generalize h1 : ({ s with env := _, busLog := _, status := _ } : State) = s1
  rw [writeByteProc_well (s := s1) (rs := true :: true :: rs) (as := true :: as) (by rw [← h1]) (by rw [← h1])
    (by rw [← h1]; exact hP) (by rw [← h1]) (by rw [← h1]), andThen_ok]
  generalize h2 : ({ s1 with env := _, busLog := _, status := _ } : State) = s2
  rw [startProc_repeated_well (s := s2) (rs := true :: rs) (as := as) (by rw [← h2, ← h1])
    (by rw [← h2, ← h1]; exact hP) (by rw [← h2]) (by rw [← h2]), andThen_ok]
  generalize h3 : ({ s2 with env := _, busLog := _, status := _ } : State) = s3
  rw [readByteProc_well (s := s3) (rs := rs) (v := v) (vs := vs) (by rw [← h3]) (by rw [← h3]) (by rw [← h3])
    (by rw [← h3, ← h2, ← h1]; exact hP) (by rw [← h3]) (by rw [← h3, ← h2, ← h1]; exact hv), andThen_ok]
  generalize h4 : ({ s3 with env := _, busLog := _, status := _ } : State) = s4
  rw [stopProc_well (s := s4) (bs := bs) (by rw [← h4, ← h3]) (by rw [← h4, ← h3, ← h2, ← h1]; exact hP)
    (by rw [← h4, ← h3, ← h2, ← h1]), andThen_ok]
  subst h4 h3 h2 h1
  simp [readEvents, afterRead, consumed, hr, ha, hb, hv]

/-- What a write attempt that goes well leaves. -/
def afterWrite (r x : Byte) (s : State) : State :=
  { s with
    env := consumed 3 3 2 0 s.env
    busLog := s.busLog ++ writeEvents s.slaveAddr r x
    status := { s.status with busState := .idle, phase := .idle, dir := .write, rxEnd := false, ack := true } }

/-- One write attempt (R143). -/
theorem writeOnce_well {r x : Byte} {s : State} {rs as : List Bool} {bs : List BusState}
    (hp : s.status.phase = .idle) (hP : 1 ≤ s.cfg.pollLimit)
    (hr : s.env.ready = true :: true :: true :: rs) (ha : s.env.acks = true :: true :: true :: as)
    (hb : s.env.busStates = .idle :: .idle :: bs) :
    writeOnce r x s = (.ok (), afterWrite r x s) := by
  unfold writeOnce
  rw [startProc_well hp hP hb hr ha, andThen_ok]
  generalize h1 : ({ s with env := _, busLog := _, status := _ } : State) = s1
  rw [writeByteProc_well (s := s1) (rs := true :: rs) (as := true :: as) (by rw [← h1]) (by rw [← h1])
    (by rw [← h1]; exact hP) (by rw [← h1]) (by rw [← h1]), andThen_ok]
  generalize h2 : ({ s1 with env := _, busLog := _, status := _ } : State) = s2
  rw [writeByteProc_well (s := s2) (rs := rs) (as := as) (by rw [← h2, ← h1]) (by rw [← h2, ← h1])
    (by rw [← h2, ← h1]; exact hP) (by rw [← h2]) (by rw [← h2]), andThen_ok]
  generalize h3 : ({ s2 with env := _, busLog := _, status := _ } : State) = s3
  rw [stopProc_well (s := s3) (bs := bs) (by rw [← h3, ← h2, ← h1]) (by rw [← h3, ← h2, ← h1]; exact hP)
    (by rw [← h3, ← h2, ← h1])]
  subst h3 h2 h1
  simp [writeEvents, afterWrite, consumed, hr, ha, hb]

/-- One register access whose first attempt goes well. -/
theorem readSensor_well {r v : Byte} {s : State} {rs as : List Bool} {bs : List BusState} {vs : List Byte}
    (hp : s.status.phase = .idle) (hP : 1 ≤ s.cfg.pollLimit) (hR : 1 ≤ s.cfg.retryLimit)
    (hr : s.env.ready = true :: true :: true :: true :: rs) (ha : s.env.acks = true :: true :: true :: as)
    (hb : s.env.busStates = .idle :: .idle :: bs) (hv : s.env.rxBytes = v :: vs) :
    readSensor r s = (.ok v, afterRead r v (setAttempts 1 s)) := by
  unfold readSensor regAccess
  obtain ⟨n, hn⟩ : ∃ n, s.cfg.retryLimit = n + 1 := ⟨s.cfg.retryLimit - 1, by omega⟩
  rw [hn, regAccessFrom, readOnce_well (s := setAttempts 1 s) hp hP hr ha hb hv]

end Sys2Proof.Machine
end

