-- ==== Sys2Proof/Laws/Step.lean ====
section
/-! SUPPORT. What one step can do, once: which agent moved, and the next state. -/

namespace Sys2Proof.Machine

/-- The SEQ's turn: nothing while `BUSY` = 0, else the latched command's completion. -/
theorem seqTurn_cases {s t : State} (h : seqTurn s = .next t) :
    (s.status.busy = false ∧ t = s) ∨
      (s.status.busy = true ∧
        ((∃ i, decode s.cmd = .ok i ∧ exec i s = .next t) ∨
          ((∃ e, decode s.cmd = .error e) ∧ t = failedCheck .illegalCommand s))) := by
  unfold seqTurn at h
  split at h
  · rename_i hb
    refine .inr ⟨hb, ?_⟩
    unfold runCommand at h
    cases hd : decode s.cmd with
    | ok i => rw [hd] at h; exact .inl ⟨i, rfl, h⟩
    | error e => rw [hd] at h; cases h; exact .inr ⟨⟨e, rfl⟩, rfl⟩
  · rename_i hb
    cases h
    exact .inl ⟨by simpa using hb, rfl⟩

/-- A HOST access that goes on: it is the thread's, a whole aligned word of the window, and its effect is at its
offset. -/
theorem hostAccess_cases {a : Access} {effect : Nat → State → State} {s t : State}
    (h : hostAccess a effect s = .next t) :
    touchesWindow a s.cfg = true ∧ a.origin = .thread ∧ isWordAccess a s.cfg = true ∧
      t = effect (a.addr - s.cfg.blockBase) s := by
  unfold hostAccess at h
  split at h
  · rename_i hw
    cases ho : a.origin <;> rw [ho] at h <;> simp only at h
    · split at h
      · rename_i hi
        cases h
        exact ⟨hw, rfl, hi, rfl⟩
      · cases h
    · cases h
  · cases h

/-- What one step can do. -/
theorem step_cases {s t : State} (h : step s = .next t) :
    (∃ u, u = { s with agenda := s.agenda.tail } ∧ (s.agenda = [] ∨ ∃ rest, s.agenda = .complete :: rest) ∧
        seqTurn u = .next t) ∨
      (∃ a rest, s.agenda = .hostRead a :: rest ∧
        t = windowRead (a.addr - s.cfg.blockBase) (setAgenda rest s) ∧ isWordAccess a s.cfg = true) ∨
      (∃ a v rest, s.agenda = .hostWrite a v :: rest ∧
        t = windowWrite (a.addr - s.cfg.blockBase) v (setAgenda rest s) ∧ isWordAccess a s.cfg = true) ∨
      (∃ b rest, s.agenda = .envBusState b :: rest ∧ t = envStep b (setAgenda rest s)) ∨
      (∃ rest, s.agenda = .reset :: rest ∧ t = blockReset (setAgenda rest s)) := by
  unfold step at h
  split at h
  · rename_i ha
    refine .inl ⟨_, rfl, .inl ha, ?_⟩
    rw [ha]
    rw [show ({ s with agenda := ([] : List Action).tail } : State) = s from by rw [List.tail_nil, ← ha]]
    exact h
  · rename_i a rest ha
    cases a with
    | hostRead a =>
      obtain ⟨_, _, hi, ht⟩ := hostAccess_cases h
      exact .inr (.inl ⟨a, rest, ha, ht, hi⟩)
    | hostWrite a v =>
      obtain ⟨_, _, hi, ht⟩ := hostAccess_cases (effect := fun off => windowWrite off v) h
      exact .inr (.inr (.inl ⟨a, v, rest, ha, ht, hi⟩))
    | complete =>
      refine .inl ⟨_, rfl, .inr ⟨rest, ha⟩, ?_⟩
      rw [ha]
      exact h
    | envBusState b =>
      cases h
      exact .inr (.inr (.inr (.inl ⟨b, rest, ha, rfl⟩)))
    | reset =>
      cases h
      exact .inr (.inr (.inr (.inr ⟨rest, ha, rfl⟩)))

/-! ### The window -/

/-- What a HOST write can do (R64): nothing, set `OVR`, accept a command, or write `SLAVE_ADDR` or `RAW`. -/
theorem windowWrite_cases (off : Nat) (v : Word) (s : State) :
    windowWrite off v s = s ∨ (s.status.busy = true ∧ windowWrite off v s = setOvr true s) ∨
      (s.status.busy = false ∧ off = 0x00 ∧ windowWrite off v s = accept v s) ∨
      (s.status.busy = false ∧ off = 0x0C ∧ windowWrite off v s = setSlaveAddr (v.extractLsb' 0 7) s) ∨
      (s.status.busy = false ∧ off = 0x1C ∧ windowWrite off v s = setRaw (v.extractLsb' 0 20) s) := by
  unfold windowWrite
  split <;> cases hb : s.status.busy <;> simp [unlessBusy, hb]

/-- What a HOST read can do (R63): the HOST has one more value, and at most a draw of R67 is taken. -/
theorem windowRead_cases (off : Nat) (s : State) :
    (∃ v, windowRead off s = logRead v s) ∨
      (off = 0x04 ∧ s.status.busy = true ∧ ∃ v, windowRead off s = logRead v (setEnv (drawBusyRead s.env).2 s)) := by
  unfold windowRead
  split
  · rename_i h
    exact .inr ⟨h.1, h.2, _, rfl⟩
  · exact .inl ⟨_, rfl⟩

end Sys2Proof.Machine
end

