-- ==== Sys2Proof/Tests/Slice0.lean ====
section
/-! SUPPORT. The model's own tests. Expected results come from the worked encodings of 30_encoding.md R89 and the vectors
of 95_test_vectors.md, whose ids the comments give. The witnesses show, for each obligation with hypotheses, a concrete
state and operands that meet them, clause by clause. -/

namespace Sys2Proof.Machine.Tests

open Sys2Proof Sys2Proof.Machine

/-! ### Helpers -/

/-- EXAMPLE_CFG of 00_scope.md R10 with few polls, the window at 0x40. -/
def cfg (polls tries : Nat) : Config := ⟨polls, tries, 1, 0xE9, 0x8A, 0x8C, 0x22⟩

/-- ENV with the given answers of each kind: readiness, acknowledge, bytes, bus states. -/
def answers (r a : List Bool) (v : List Byte) (b : List BusState) : Env := ⟨r, a, v, b, [], 0, 0⟩

/-- ENV of a well-behaved slave, as the vectors' `WENV`: enough good answers for `n` read accesses. -/
def wenv (n : Nat) (v : List Byte) : Env :=
  answers (List.replicate (4 * n) true) (List.replicate (3 * n) true) v (List.replicate (2 * n) .idle)

/-- The reset state with two polls, three tries, the slave address 0x76 and an ENV. -/
def base (e : Env) : State := { State.reset with cfg := cfg 2 3, env := e, slaveAddr := 0x76 }

/-- The same state in a given phase, direction and `RXEND`. -/
def atPhase (p : Phase) (d : Dir) (x : Bool) (e : Env) : State :=
  { base e with status := { Status.reset with phase := p, dir := d, rxEnd := x } }

/-- A loaded calibration store and a raw sample (the columns of 2.7). -/
def calibrated (raw : BitVec 20) (t1 t2 : BitVec 16) (t3 : BitVec 8) : State :=
  { base (wenv 0 []) with
    raw := raw
    calT1 := t1
    calT2 := t2
    calT3 := t3
    status := { Status.reset with calValid := true } }

/-- `STATUS` as read, the events emitted and the draws taken, where the outcome is a next state. -/
def seen (o : Host.Outcome State Fault Refusal) : Option (Word × List BusEvent × Nat) :=
  match o with
  | .next s => some (statusWord s.status, s.busLog, s.env.drawn)
  | .fault _ => none
  | .refused _ => none

/-- One value of the next state. -/
def got {α : Type} (f : State → α) (o : Host.Outcome State Fault Refusal) : Option α :=
  match o with
  | .next s => some (f s)
  | .fault _ => none
  | .refused _ => none

/-! ### WellFormed: one ill-formed word for each line of R86 -/

-- V-E13
theorem test_wellFormed_legal : wellFormed 0xA0000000 = true := by decide
-- V-E14, V-E15
theorem test_opLegal_refuses : opLegal 0x00000000 = false ∧ opLegal 0xB0000000 = false := by decide
-- V-E17
theorem test_rsvLegal_refuses : rsvLegal 0x100100EC = false := by decide
-- V-E18, V-E22
theorem test_regLegal_refuses : regLegal 0x20000100 = false ∧ regLegal 0x80000100 = false := by decide
-- V-E19
theorem test_ackArgLegal_refuses : ackArgLegal 0x30000002 = false := by decide
-- V-E20, V-E21, V-E23
theorem test_noArgLegal_refuses :
    noArgLegal 0x40000001 = false ∧ noArgLegal 0x6000D001 = false ∧ noArgLegal 0xA0000001 = false := by decide

/-! ### Decode: every constructor's word written out from R80 to R85, as OP ++ RSV ++ REG ++ ARG -/

theorem test_decode_start : decode 0b0001_000000000000_00000000_11101101 = .ok (.start 0x76 .read) := by decide
theorem test_decode_writeByte : decode 0b0010_000000000000_00000000_11010000 = .ok (.writeByte 0xD0) := by decide
theorem test_decode_readByte : decode 0b0011_000000000000_00000000_00000001 = .ok (.readByte true) := by decide
theorem test_decode_stop : decode 0b0100_000000000000_00000000_00000000 = .ok .stop := by decide
theorem test_decode_recover : decode 0b0101_000000000000_00000000_00000000 = .ok .recover := by decide
theorem test_decode_readReg : decode 0b0110_000000000000_11010000_00000000 = .ok (.readReg 0xD0) := by decide
theorem test_decode_writeReg : decode 0b0111_000000000000_11100000_10110110 = .ok (.writeReg 0xE0 0xB6) := by decide
theorem test_decode_loadCal : decode 0b1000_000000000000_00000000_00000000 = .ok .loadCal := by decide
theorem test_decode_readRaw : decode 0b1001_000000000000_00000000_00000000 = .ok .readRaw := by decide
theorem test_decode_calcTemp : decode 0b1010_000000000000_00000000_00000000 = .ok .calcTemp := by decide

/-- V-E14 to V-E23: each is refused, by its reason. -/
theorem test_decode_refuses :
    [0x00000000, 0xB0000000, 0xF0000000, 0x100100EC, 0x20000100, 0x30000002, 0x40000001, 0x6000D001, 0x80000100,
        0xA0000001].map decode =
      [.error .opcode, .error .opcode, .error .opcode, .error .reserved, .error .reg, .error .arg, .error .arg,
        .error .arg, .error .reg, .error .arg] := by decide

theorem test_decodeTableWord : decodeTableWord 32 0x7000E0B6 = some (.writeReg 0xE0 0xB6) ∧
    decodeTableWord 32 0xB0000000 = none ∧ decodeTableWord 40 0x10000000 = none := by decide

/-! ### One step of each command -/

-- V-T1
theorem test_start_ok :
    seen (exec (.start 0x76 .write) (base (wenv 1 []))) = some (0x00001080, [.startCond, .addrByte 0xEC], 3) := by decide
-- V-T3
theorem test_start_wedged :
    seen (exec (.start 0x76 .read) (base (answers [] [] [] [.error]))) = some (0x003000E3, [], 1) := by decide
-- V-T11
theorem test_writeByte_nack :
    seen (exec (.writeByte 0xD0) (atPhase .dataPhase .write false (answers [true] [false] [] []))) =
      some (0x001000C1, [.txByte 0xD0], 2) := by decide
-- V-T12, with two polls and ACK not set before
theorem test_writeByte_timeout :
    seen (exec (.writeByte 0xD0) (atPhase .dataPhase .write false (answers [false, false] [] [] []))) =
      some (0x002000C2, [.txByte 0xD0], 2) := by decide
-- P4: READ_BYTE ACK then DATA
theorem test_readByte_data :
    got (fun t => (t.data, t.busLog)) (exec (.readByte true) (atPhase .dataPhase .read false (wenv 1 [0x19]))) =
      some (0x19, [.rxByte 0x19, .masterAck true]) := by decide
-- V-T16
theorem test_readByte_ended :
    seen (exec (.readByte false) (atPhase .dataPhase .read true (wenv 1 [0x19]))) = some (0x00000C86, [], 0) := by decide
-- V-T20, with two polls: Idle at the last sample
theorem test_stop_last_sample :
    seen (exec .stop (atPhase .dataPhase .write false (answers [] [] [] [.busy, .idle]))) =
      some (0x00000000, [.stopCond], 2) := by decide
-- V-T19, with two polls
theorem test_stop_wedged :
    seen (exec .stop (atPhase .dataPhase .write false (answers [] [] [] [.error, .busy]))) =
      some (0x003000D3, [.stopCond], 2) := by decide
-- V-T24
theorem test_recover_forced :
    seen (exec .recover (base (answers [] [] [] [.error]))) = some (0x00000000, [.forcedStop, .forceIdle], 1) := by decide
-- V-T22
theorem test_recover_dataPhase :
    seen (exec .recover (atPhase .dataPhase .write false (wenv 1 []))) = some (0x00000086, [], 0) := by decide
-- V-A0
theorem test_readReg_events :
    seen (exec (.readReg 0xD0) (base (wenv 1 [0x61]))) =
      some (0x00011000, [.startCond, .addrByte 0xEC, .txByte 0xD0, .repStart, .addrByte 0xED, .rxByte 0x61,
        .masterAck false, .stopCond], 10) := by decide
-- P3: the wedged bus, recovered inside the read
theorem test_readReg_recovers :
    got (fun t => (statusWord t.status, t.data, t.busLog.length, t.env.drawn))
        (exec (.readReg 0xD0) (base (answers (List.replicate 4 true) (List.replicate 3 true) [0x61]
          [.busy, .busy, .idle, .idle]))) = some (0x00321000, 0x61, 10, 12) := by decide
-- V-A0
theorem test_writeReg_events :
    seen (exec (.writeReg 0xE0 0xB6) (base (wenv 1 []))) =
      some (0x00011000, [.startCond, .addrByte 0xEC, .txByte 0xE0, .txByte 0xB6, .stopCond], 8) := by decide
-- P5's exhaustion, by a WRITE_REG: three addresses NACKed, three recoveries that find the bus Busy
theorem test_writeReg_exhausted :
    got (fun t => (statusWord t.status, t.busLog.length))
        (exec (.writeReg 0xE0 0xB6) (base (answers [true, true, true] [false, false, false] []
          [.idle, .busy, .idle, .busy, .idle, .busy]))) = some (0x00130004, 12) := by decide
-- V-L2
theorem test_loadCal_signs :
    got (fun t => (statusWord t.status, t.calT1.toNat, t.calT2.toInt, t.calT3.toInt, t.busLog.length, t.env.drawn))
        (exec .loadCal (base (wenv 5 [0xE6, 0x80, 0x19, 0xE8, 0xF0]))) =
      some (0x00013000, 32998, -6119, -16, 40, 50) := by decide
-- V-L4
theorem test_loadCal_locked : seen (exec .loadCal (calibrated 0 0 0 0)) = some (0x00002008, [], 0) := by decide
-- V-R5
theorem test_readRaw_assembles :
    got (fun t => (t.raw, t.busLog.length, t.env.drawn)) (exec .readRaw (base (wenv 3 [0x12, 0x34, 0x56]))) =
      some (0x12345, 24, 30) := by decide
-- V-R6, exhausted at the third register, its three attempts NACKed at the register byte
theorem test_readRaw_exhausted :
    got (fun t => (statusWord t.status, t.raw, t.env.drawn))
        (exec .readRaw { base (answers (List.replicate 14 true)
          (List.replicate 6 true ++ [true, false, true, false, true, false]) [0x66, 0x66]
          ([.idle, .idle, .idle, .idle] ++ [.idle, .busy, .idle, .busy, .idle, .busy])) with raw := 0x12345 }) =
      some (0x00130004, 0x12345, 38) := by decide
-- V-C1
theorem test_calcTemp_fixture :
    got (fun t => (statusWord t.status, t.temp)) (exec .calcTemp (calibrated 419430 26342 26649 16)) =
      some (0x00002000, 0xFFBF) := by decide +kernel
-- V-C10: the smallest result, out of range
theorem test_calcTemp_overflow :
    got (fun t => (statusWord t.status, t.temp)) (exec .calcTemp (calibrated 1048575 0 0x8000 0x80)) =
      some (0x00006000, 0x5600) := by decide +kernel

/-! ### The window, the agents and the step -/

-- V-E24
theorem test_illegal_word :
    seen (step ((base (wenv 0 [])).withFetchWord 32 0xB0000000)) = some (0x00000009, [], 0) := by decide
-- V-M2
theorem test_write_slaveAddr :
    got (·.slaveAddr) (step { base (wenv 0 []) with agenda := [.hostWrite ⟨.thread, 0x4C, 4⟩ 0xFFFFFFF6] }) =
      some 0x76 := by decide
-- V-M5: sign extension of CAL_T2 and CAL_T3, zero extension of CAL_T1
theorem test_read_extensions :
    [0x10, 0x14, 0x18].map (fun off => got (·.reads) (step { calibrated 0 0x80E6 0xE819 0xF0 with
      agenda := [.hostRead ⟨.thread, 0x40 + off, 4⟩] })) =
      [some [0x000080E6], some [0xFFFFE819], some [0xFFFFFFF0]] := by decide
-- V-M6: dropped while busy, and OVR read back with BUS_STATE from ENV
theorem test_overrun :
    got (fun t => (t.cmd, statusWord t.status)) (step { base (wenv 0 []) with
      cmd := 0x6000D000
      status := { Status.reset with busy := true }
      agenda := [.hostWrite ⟨.thread, 0x40, 4⟩ 0x40000000] }) = some (0x6000D000, 0x00000300) := by decide
-- V-M9
theorem test_subword_refused :
    (match step { base (wenv 0 []) with agenda := [.hostRead ⟨.thread, 0x44, 2⟩] } with
      | .refused r => some r
      | .next _ => none
      | .fault _ => none) = some .subWordOrMisaligned := by decide

/-! ### Witnesses: the hypotheses of each obligation are met, clause by clause -/

/-- A busy state about to complete the word `w`. -/
def latched (w : Word) (a : List Action) : State :=
  { base (wenv 1 [0x61]) with cmd := w, status := { Status.reset with busy := true }, agenda := a }

theorem witness_EncodeOfDecode : decode 0x100000FF = .ok (.start 0x7F .read) := by decide

theorem witness_IllegalWordsCompleteIllegal :
    AboutToComplete (latched 0xB0000000 []) ∧ AboutToComplete (latched 0x00000000 [.complete, .reset]) ∧
      (∀ i, decode (latched 0xB0000000 []).cmd ≠ .ok i) ∧ ∀ i, decode (latched 0x00000000 []).cmd ≠ .ok i := by
  have h1 : decode (latched 0xB0000000 []).cmd = .error .opcode := by decide
  have h2 : decode (latched 0x00000000 []).cmd = .error .opcode := by decide
  exact ⟨⟨rfl, .inl rfl⟩, ⟨rfl, .inr ⟨_, rfl⟩⟩, (fun _ h => by rw [h1] at h; cases h), (fun _ h => by rw [h2] at h; cases h)⟩

theorem witness_StepRunsDecodedCommand :
    AboutToComplete (latched 0x6000D000 [.complete]) ∧ decode (latched 0x6000D000 [.complete]).cmd = .ok (.readReg 0xD0) :=
  ⟨⟨rfl, .inr ⟨_, rfl⟩⟩, by decide⟩

theorem witness_PlacedWordRunsNext : decodeTableWord 32 0xA0000000 = some .calcTemp := by decide

theorem witness_EnvStepSetsBusState :
    ({ base (wenv 0 []) with agenda := [.envBusState .error] } : State).agenda = .envBusState .error :: [] ∧
      (base (wenv 0 [])).status.busy = false ∧ (latched 0 [.envBusState .busy]).agenda = .envBusState .busy :: [] ∧
      (latched 0 []).status.busy = true := by decide

/-- START: an illegal phase; a bus that samples Busy; and, from Idle and from DataPhase, a wait that expires, one that is
Ready with a NACK, and one with an ACK. -/
theorem witness_StartOutcomes :
    ((atPhase .error .write false (wenv 0 [])).status.phase ≠ .idle ∧
      (atPhase .error .write false (wenv 0 [])).status.phase ≠ .dataPhase) ∧
    ((base (answers [] [] [] [.busy])).status.phase = .idle ∧
      (drawBusState (base (answers [] [] [] [.busy])).env).1 ≠ .idle) ∧
    (drawBusState (answers [] [] [] [.idle])).1 = .idle ∧
    (waitReady .addrDone 2 (answers [false, false] [] [] [])).1 = false ∧
    (waitReady .addrDone 2 (answers [false, true] [false] [] [])).1 = true ∧
    (drawAck (waitReady .addrDone 2 (answers [false, true] [false] [] [])).2).1 = false ∧
    (drawAck (waitReady .addrDone 2 (answers [true] [true] [] [])).2).1 = true := by decide

theorem witness_WriteByteOutcomes :
    ¬((base (wenv 0 [])).status.phase = .dataPhase ∧ (base (wenv 0 [])).status.dir = .write) ∧
    ((atPhase .dataPhase .write false (wenv 1 [])).status.phase = .dataPhase ∧
      (atPhase .dataPhase .write false (wenv 1 [])).status.dir = .write) ∧
    (waitReady .txDone 2 (answers [false, false] [] [] [])).1 = false ∧
    (waitReady .txDone 2 (answers [false, true] [false] [] [])).1 = true ∧
    (drawAck (waitReady .txDone 2 (answers [false, true] [false] [] [])).2).1 = false ∧
    (drawAck (waitReady .txDone 2 (answers [true] [true] [] [])).2).1 = true := by decide

theorem witness_ReadByteOutcomes :
    ¬((atPhase .dataPhase .read true (wenv 0 [])).status.phase = .dataPhase ∧
      (atPhase .dataPhase .read true (wenv 0 [])).status.dir = .read ∧
      (atPhase .dataPhase .read true (wenv 0 [])).status.rxEnd = false) ∧
    ((atPhase .dataPhase .read false (wenv 0 [])).status.phase = .dataPhase ∧
      (atPhase .dataPhase .read false (wenv 0 [])).status.dir = .read ∧
      (atPhase .dataPhase .read false (wenv 0 [])).status.rxEnd = false) ∧
    (waitReady .rxDone 2 (answers [false, false] [] [] [])).1 = false ∧
    (waitReady .rxDone 2 (answers [false, true] [] [0xFF] [])).1 = true := by decide

/-- STOP: the first Idle at the first and at the last sample; none. -/
theorem witness_StopOutcomes :
    (base (wenv 0 [])).status.phase ≠ .dataPhase ∧
    (busSample 0 (answers [] [] [] [.idle]) = .idle ∧ ∀ m, m < 0 → busSample m (answers [] [] [] [.idle]) ≠ .idle) ∧
    (busSample 1 (answers [] [] [] [.busy, .idle]) = .idle ∧
      ∀ m, m < 1 → busSample m (answers [] [] [] [.busy, .idle]) ≠ .idle) ∧
    ∀ m, m < 2 → busSample m (answers [] [] [] [.error, .busy]) ≠ .idle := by decide

theorem witness_RecoverOutcomes :
    ((atPhase .dataPhase .write false (wenv 0 [])).status.phase ≠ .idle ∧
      (atPhase .dataPhase .write false (wenv 0 [])).status.phase ≠ .error) ∧
    (base (wenv 0 [])).status.phase = .idle ∧ (atPhase .error .write false (wenv 0 [])).status.phase = .error := by decide

theorem witness_StopNeverTimesOut : ∃ t, exec .stop (base (wenv 0 [])) = .next t := ⟨_, rfl⟩

theorem witness_RecoverNeverFails :
    (base (wenv 1 [])).status.phase = .idle ∨ (base (wenv 1 [])).status.phase = .error := .inl rfl

theorem witness_ZeroByteTransactionIsLegal :
    ∃ t, exec (.start 0x76 .write) (base (wenv 1 [])) = .next t ∧ t.status.result = none ∧
      (drawBusState t.env).1 = .idle ∧ 1 ≤ (base (wenv 1 [])).cfg.pollLimit := ⟨_, rfl, by decide, by decide, by decide⟩

theorem witness_NackEndsReadPhaseWithoutStop :
    ∃ t, exec (.readByte false) (atPhase .dataPhase .read false (wenv 1 [0])) = .next t ∧ t.status.result = none :=
  ⟨_, rfl, by decide⟩

/-- Ready at the first and at the last of two polls; never. -/
theorem witness_BoundedWaitPollsUpToFirstReady :
    (readySample .addrDone 0 (answers [true] [] [] []) = true) ∧
    (readySample .txDone 1 (answers [false, true] [] [] []) = true ∧
      ∀ m, m < 1 → readySample .txDone m (answers [false, true] [] [] []) = false) ∧
    ∀ m, m < 2 → readySample .rxDone m (answers [false, false] [] [] []) = false := by decide

theorem witness_FailedPrimitiveBlocksUntilRecover :
    (∃ t, exec (.start 0x77 .write) (base (answers [true] [false] [] [.idle])) = .next t ∧
      t.status.result = some (.bus .noAck)) ∧
    (atPhase .error .read false (wenv 0 [])).status.phase = .error ∧ Instr.loadCal ≠ .recover ∧
      Instr.loadCal ≠ .calcTemp := ⟨⟨_, rfl, by decide⟩, by decide, by decide, by decide⟩

theorem witness_FailedCheckChangesNothingElse :
    (∃ t, exec .stop (base (wenv 0 [])) = .next t ∧ t.status.result = some .sequenceError) ∧
    (∃ t, exec .loadCal (calibrated 0 0 0 0) = .next t ∧ t.status.result = some .calLocked) ∧
    ∃ t, exec .calcTemp (base (wenv 0 [])) = .next t ∧ t.status.result = some .notCalibrated :=
  ⟨⟨_, rfl, by decide⟩, ⟨_, rfl, by decide⟩, ⟨_, rfl, by decide⟩⟩

theorem witness_CompositesNeedIdle : (atPhase .dataPhase .write false (wenv 0 [])).status.phase ≠ .idle := by decide

theorem witness_ReadRegReadsByte :
    (base (wenv 1 [0xFF])).status.phase = .idle ∧ (base (wenv 1 [0xFF])).cfg.Valid ∧
      WellBehaved 4 3 2 [0xFF] (base (wenv 1 [0xFF])).env :=
  ⟨rfl, by decide, ⟨[], rfl⟩, ⟨[], rfl⟩, ⟨[], rfl⟩, ⟨[], rfl⟩⟩

theorem witness_WriteRegWritesByte :
    (base (wenv 1 [])).status.phase = .idle ∧ (base (wenv 1 [])).cfg.Valid ∧ WellBehaved 3 3 2 [] (base (wenv 1 [])).env :=
  ⟨rfl, by decide, ⟨[true], rfl⟩, ⟨[], rfl⟩, ⟨[], rfl⟩, ⟨[], rfl⟩⟩

theorem witness_ReadRegOutcomes : (base (wenv 1 [0])).status.phase = .idle ∧ (base (wenv 1 [0])).cfg.Valid := by decide

theorem witness_WriteRegOutcomes : (base (wenv 1 [])).status.phase = .idle ∧ (base (wenv 1 [])).cfg.Valid := by decide

/-- Two tries; the bus samples Busy at the first START, at both, so that one and two attempts fail. -/
def twoTries (b : List BusState) : State :=
  { base (answers (List.replicate 4 true) (List.replicate 3 true) [0x61] b) with cfg := cfg 2 2 }

theorem witness_RetryBound_reading :
    (∃ u x, FailedAttempts (readOnce 0xD0) 1 (opened (twoTries [.busy, .busy, .idle, .idle])) u ∧
      readOnce 0xD0 (setAttempts 2 u) = (.ok 0x61, x)) ∧
    (∃ u, FailedAttempts (readOnce 0xD0) 2 (opened (twoTries [.busy, .busy, .error, .idle])) u) ∧
    (twoTries []).cfg.Valid ∧ (twoTries []).cfg.retryLimit = 1 + 1 :=
  ⟨⟨_, _, ⟨_, rfl, .bus .busWedged, _, rfl, rfl⟩, rfl⟩,
    ⟨_, ⟨_, ⟨_, rfl, .bus .busWedged, _, rfl, rfl⟩, .bus .busWedged, _, rfl, rfl⟩⟩, by decide, rfl⟩

theorem witness_RetryBound_writing :
    (∃ u x, FailedAttempts (writeOnce 0xE0 0xB6) 1 (opened (twoTries [.busy, .busy, .idle, .idle])) u ∧
      writeOnce 0xE0 0xB6 (setAttempts 2 u) = (.ok (), x)) ∧
    ∃ u, FailedAttempts (writeOnce 0xE0 0xB6) 2 (opened (twoTries [.busy, .busy, .error, .idle])) u :=
  ⟨⟨_, _, ⟨_, rfl, .bus .busWedged, _, rfl, rfl⟩, rfl⟩,
    ⟨_, ⟨_, ⟨_, rfl, .bus .busWedged, _, rfl, rfl⟩, .bus .busWedged, _, rfl, rfl⟩⟩⟩

theorem witness_RecoveryBeforeRetry :
    (twoTries [.busy, .busy, .idle, .idle]).status.phase = .idle ∧ 1 ≤ (twoTries []).cfg.pollLimit ∧
      2 ≤ (twoTries []).cfg.retryLimit ∧ (twoTries []).cfg.retryLimit ≤ 15 ∧
      (twoTries [.busy, .busy, .idle, .idle]).env.busStates = .busy :: .busy :: .idle :: .idle :: [] ∧
      (∃ l, (twoTries []).env.ready = List.replicate 4 true ++ l) ∧
      (∃ l, (twoTries []).env.acks = List.replicate 3 true ++ l) ∧ ∃ l, (twoTries []).env.rxBytes = 0x61 :: l :=
  ⟨rfl, by decide, by decide, by decide, rfl, ⟨[], rfl⟩, ⟨[], rfl⟩, ⟨[], rfl⟩⟩

theorem witness_LoadCalCommitsCoefficients :
    (base (wenv 5 [0xE6, 0x80, 0x7F, 0x80, 0x80])).status.phase = .idle ∧
      (base (wenv 5 [0xE6, 0x80, 0x7F, 0x80, 0x80])).status.calValid = false ∧ (base (wenv 5 [])).cfg.Valid ∧
      WellBehaved 20 15 10 [0xE6, 0x80, 0x7F, 0x80, 0x80] (base (wenv 5 [0xE6, 0x80, 0x7F, 0x80, 0x80])).env :=
  ⟨rfl, rfl, by decide, ⟨[], rfl⟩, ⟨[], rfl⟩, ⟨[], rfl⟩, ⟨[], rfl⟩⟩

/-- Both clauses: all five reads succeed; the first is exhausted. -/
theorem witness_LoadCalCommitsAllOrNothing :
    (base (wenv 5 [1, 2, 3, 4, 5])).status.phase = .idle ∧ (base (wenv 5 [1, 2, 3, 4, 5])).status.calValid = false ∧
    (base (wenv 5 [])).cfg.Valid ∧
    (sensorReads [0xE9, 0xEA, 0x8A, 0x8B, 0x8C] (opened (base (wenv 5 [1, 2, 3, 4, 5])))).1 = some [1, 2, 3, 4, 5] ∧
    (sensorReads [0xE9, 0xEA, 0x8A, 0x8B, 0x8C]
      (opened (base (answers [] [] [] (List.replicate 6 .busy))))).1 = none := by decide

theorem witness_SecondLoadCalIsLocked :
    ((calibrated 0 0 0 0).status.phase = .idle ∧ (calibrated 0 0 0 0).status.calValid = true) ∧
    ∃ t, step { calibrated 0 0 0 0 with agenda := [.reset] } = .next t ∧ t.status.calValid = false :=
  ⟨by decide, _, rfl, by decide⟩

theorem witness_CalibrationIsImmutable :
    ∃ t, (calibrated 0 0 0 0).status.calValid = true ∧ (∀ rest, (calibrated 0 0 0 0).agenda ≠ .reset :: rest) ∧
      step (calibrated 0 0 0 0) = .next t := ⟨_, rfl, by simp [calibrated, base, State.reset], rfl⟩

theorem witness_ReadRawCommitsAllOrNothing :
    (base (wenv 3 [1, 2, 3])).status.phase = .idle ∧ (base (wenv 3 [1, 2, 3])).cfg.Valid ∧
    (sensorReads [0x22, 0x23, 0x24] (opened (base (wenv 3 [1, 2, 3])))).1 = some [1, 2, 3] ∧
    (sensorReads [0x22, 0x23, 0x24] (opened (base (answers [] [] [] (List.replicate 6 .busy))))).1 = none := by decide

theorem witness_ReadRawAssemblesSample :
    (base (wenv 3 [0xFF, 0xFF, 0xFF])).status.phase = .idle ∧ (base (wenv 3 [0xFF, 0xFF, 0xFF])).cfg.Valid ∧
      WellBehaved 12 9 6 [0xFF, 0xFF, 0xFF] (base (wenv 3 [0xFF, 0xFF, 0xFF])).env :=
  ⟨rfl, by decide, ⟨[], rfl⟩, ⟨[], rfl⟩, ⟨[], rfl⟩, ⟨[], rfl⟩⟩

theorem witness_RawSampleProperties : (0x6F : Byte).toNat / 16 = (0x60 : Byte).toNat / 16 := by decide

theorem witness_CalcTempComputesFormula :
    (calibrated 419430 26342 26649 16).status.calValid = true ∧ (base (wenv 0 [])).status.calValid = false := by decide

/-- V-C7 and V-C8: the last value that fits, and the first that does not. -/
theorem witness_TempIsExactUnlessOverflow :
    (∃ t, exec .calcTemp (calibrated 838856 0 32767 0) = .next t ∧ t.status.result = none ∧ t.status.tempOvf = false) ∧
    ∃ t, exec .calcTemp (calibrated 838880 0 32767 0) = .next t ∧ t.status.result = none ∧ t.status.tempOvf = true :=
  ⟨⟨_, rfl, rfl, by decide +kernel⟩, ⟨_, rfl, rfl, by decide +kernel⟩⟩

theorem witness_CompensationIsPure :
    (∃ s', exec .calcTemp (calibrated 419430 26342 26649 16) = .next s') ∧
    (∃ t', exec .calcTemp { calibrated 419430 26342 26649 16 with data := 7 } = .next t') ∧
    (calibrated 419430 26342 26649 16).status.calValid = true := ⟨⟨_, rfl⟩, ⟨_, rfl⟩, rfl⟩

/-- A state whose next move is a HOST access at offset `off`. -/
def reading (busy : Bool) (off : Nat) : State :=
  { base (wenv 0 []) with
    status := { Status.reset with busy := busy }
    agenda := [.hostRead ⟨.thread, 0x40 + off, 4⟩] }

theorem witness_HostReadReturnsRegister :
    0x3C < 0x40 ∧ 0x3C % 4 = 0 ∧ (reading false 0x3C).status.busy = false ∧
      ∀ off ∈ [0x00, 0x04, 0x08, 0x0C, 0x10, 0x14, 0x18, 0x1C, 0x20, 0x24, 0x3C],
        (reading false off).agenda = .hostRead ⟨.thread, (reading false off).cfg.blockBase + off, 4⟩ :: [] := by decide

theorem witness_HostWriteEffects :
    ∀ off ∈ [0x00, 0x04, 0x0C, 0x1C, 0x3C], ∀ b ∈ [true, false],
      ({ reading b 0 with agenda := [.hostWrite ⟨.thread, 0x40 + off, 4⟩ 5] } : State).agenda =
        .hostWrite ⟨.thread, (reading b 0).cfg.blockBase + off, 4⟩ 5 :: [] ∧ (reading b 0).status.busy = b := by decide

/-- Each clause: a write dropped at each of the three offsets; an accept; `OVR` set by a step, and cleared by one. -/
theorem witness_OverrunFlagRecordsDroppedWrites :
    (∀ off ∈ [0x00, 0x0C, 0x1C],
      got (·.status.ovr) (step { reading true 0 with agenda := [.hostWrite ⟨.thread, 0x40 + off, 4⟩ 5] }) = some true) ∧
    (∃ t, step { reading false 0 with agenda := [.hostWrite ⟨.thread, 0x40, 4⟩ 5],
                                      status := { Status.reset with ovr := true } } = .next t ∧ t.status.ovr ≠ true) ∧
    (reading true 0).cfg.blockBase = 0x40 ∧ (reading true 0).status.ovr = false ∧ (reading true 0).status.busy = true :=
  ⟨by decide, ⟨_, rfl, by decide⟩, by decide, by decide, by decide⟩

theorem witness_BusyReadsReturnHeldValues :
    (reading true 0x04).status.busy = true ∧
      (reading true 0x04).agenda = .hostRead ⟨.thread, (reading true 0x04).cfg.blockBase + 0x04, 4⟩ :: [] ∧
      (reading true 0x18).agenda = .hostRead ⟨.thread, (reading true 0x18).cfg.blockBase + 0x18, 4⟩ :: [] ∧
      (reading true 0x3C).agenda = .hostRead ⟨.thread, (reading true 0x3C).cfg.blockBase + 0x3C, 4⟩ :: [] := by decide

theorem witness_BusyFreezesRegisters :
    ∃ t, (reading true 0x08).status.busy = true ∧ step (reading true 0x08) = .next t ∧ (reading true 0x08).agenda ≠ [] ∧
      ∀ rest, (reading true 0x08).agenda ≠ .complete :: rest ∧ (reading true 0x08).agenda ≠ .reset :: rest :=
  ⟨_, rfl, rfl, by decide, by simp [reading]⟩

/-- Both clauses: the first and last byte of the window; a handler; a narrow access, a misaligned one, one of width 0. -/
theorem witness_UndefinedAccessesAreRefused :
    (∀ x ∈ ([⟨.handler, 0x40, 4⟩, ⟨.thread, 0x7F, 1⟩, ⟨.thread, 0x46, 4⟩, ⟨.thread, 0x40, 0⟩] : List Access),
      (base (wenv 0 [])).cfg.blockBase ≤ x.addr ∧ x.addr < (base (wenv 0 [])).cfg.blockBase + 0x40) ∧
    (1 ≠ 4 ∨ (0x7F - (base (wenv 0 [])).cfg.blockBase) % 4 ≠ 0) ∧
    (0x46 - (base (wenv 0 [])).cfg.blockBase) % 4 ≠ 0 := by decide

theorem witness_BlockResetRestoresResetState :
    (latched 0x6000D000 [.reset]).agenda = .reset :: [] ∧ (latched 0x6000D000 [.reset]).status.busy = true := by decide

/-- Not the reset state: a calibrated block that has just exhausted a register access. -/
def exhausted : State :=
  { calibrated 419430 26342 26649 16 with
    status := { Status.reset with
                calValid := true
                result := some .accessExhausted
                attempts := 3
                lastErr := some .noAck } }

theorem witness_StepKeepsInv : Inv exhausted ∧ ∃ t, step exhausted = .next t := by
  refine ⟨⟨by decide, by decide, fun _ => ⟨rfl, rfl⟩, by decide, by decide, ?_, fun _ => by decide, ?_⟩, _, rfl⟩
  · simp [exhausted]
  · simp [exhausted]

theorem witness_CompositesEndIdle :
    ∃ t, exec .loadCal (base (wenv 5 [1, 2, 3, 4, 5])) = .next t ∧ t.status.result ≠ some .sequenceError :=
  ⟨_, rfl, by decide⟩

theorem witness_PhaseTransitions :
    ∃ t, exec (.start 0x76 .write) (base (wenv 1 [])) = .next t ∧ (base (wenv 1 [])).status.phase ≠ .addressing :=
  ⟨_, rfl, by decide⟩

/-- Each clause: a changed `DATA`, `RAW`, `TEMP`, store and `ACK`. -/
theorem witness_RegistersHaveOnlyTheirWriters :
    (∃ t, exec (.readReg 0) (base (wenv 1 [7])) = .next t ∧ t.data ≠ (base (wenv 1 [7])).data ∧
      t.status.ack ≠ (base (wenv 1 [7])).status.ack) ∧
    (∃ t, exec .readRaw (base (wenv 3 [1, 2, 3])) = .next t ∧ t.raw ≠ (base (wenv 3 [1, 2, 3])).raw) ∧
    (∃ t, exec .calcTemp (calibrated 838880 0 32767 0) = .next t ∧ t.temp ≠ 0 ∧ t.status.tempOvf ≠ false) ∧
    ∃ t, exec .loadCal (base (wenv 5 [1, 2, 3, 4, 5])) = .next t ∧ t.calT1 ≠ 0 ∧ t.calT2 ≠ 0 ∧ t.calT3 ≠ 0 ∧
      t.status.calValid ≠ false :=
  ⟨⟨_, rfl, by decide, by decide⟩, ⟨_, rfl, by decide⟩, ⟨_, rfl, by decide +kernel, by decide +kernel⟩,
    ⟨_, rfl, by decide, by decide, by decide, by decide⟩⟩

theorem witness_ParametersFixedAndLogGrows :
    ∃ t, step (latched 0x6000D000 []) = .next t ∧ ∀ rest, (latched 0x6000D000 []).agenda ≠ .reset :: rest :=
  ⟨_, rfl, by simp [latched]⟩

theorem witness_DrawsAreBounded :
    (∃ t, (base (wenv 1 [0])).cfg.Valid ∧ exec (.readReg 0) (base (wenv 1 [0])) = .next t) ∧
    (∃ t, exec .stop (base (wenv 1 [0])) = .next t ∧ t.status.result = some .sequenceError) ∧
    (AboutToComplete (latched 0xF0000000 []) ∧ wellFormed (latched 0xF0000000 []).cmd = false ∧
      ∃ t, step (latched 0xF0000000 []) = .next t) :=
  ⟨⟨_, by decide, rfl⟩, ⟨_, rfl, by decide⟩, ⟨rfl, .inl rfl⟩, by decide, _, rfl⟩

end Sys2Proof.Machine.Tests
end

section
/-! PROOFS. `STATUS` and its overrun flag (10_state.md): the fields of the `STATUS` word as read, the reset values, and
which moves change `OVR`. -/

namespace Sys2Proof.Machine

section StatusFields
/-! ### The fields of `STATUS` as read (R23) -/

@[simp] theorem statusWord_resultField (st : Status) : (statusWord st).extractLsb' 0 4 = resultCode st.result := by
  simp (disch := decide) only [statusWord, BitVec.extractLsb'_append_eq_of_add_le]
  simp

@[simp] theorem statusWord_busStateField (st : Status) :
    (statusWord st).extractLsb' 4 2 = busStateCode st.busState := by
  simp (disch := decide) only [statusWord, BitVec.extractLsb'_append_eq_of_add_le, BitVec.extractLsb'_append_eq_of_le]
  simp

@[simp] theorem statusWord_phaseField (st : Status) : (statusWord st).extractLsb' 6 2 = phaseCode st.phase := by
  simp (disch := decide) only [statusWord, BitVec.extractLsb'_append_eq_of_add_le, BitVec.extractLsb'_append_eq_of_le]
  simp

theorem statusWord_busyBit (st : Status) : (statusWord st).getLsbD 8 = st.busy := by
  simp only [statusWord, BitVec.getLsbD_append]
  simp [flagBit]

theorem statusWord_ovrBit (st : Status) : (statusWord st).getLsbD 9 = st.ovr := by
  simp only [statusWord, BitVec.getLsbD_append]
  simp [flagBit]

theorem statusWord_dirBit (st : Status) : (statusWord st).getLsbD 10 = true ↔ st.dir = .read := by
  simp only [statusWord, BitVec.getLsbD_append]
  cases st.dir <;> simp [Dir.bit]

theorem statusWord_rxEndBit (st : Status) : (statusWord st).getLsbD 11 = st.rxEnd := by
  simp only [statusWord, BitVec.getLsbD_append]
  simp [flagBit]

theorem statusWord_ackBit (st : Status) : (statusWord st).getLsbD 12 = st.ack := by
  simp only [statusWord, BitVec.getLsbD_append]
  simp [flagBit]

theorem statusWord_calValidBit (st : Status) : (statusWord st).getLsbD 13 = st.calValid := by
  simp only [statusWord, BitVec.getLsbD_append]
  simp [flagBit]

theorem statusWord_tempOvfBit (st : Status) : (statusWord st).getLsbD 14 = st.tempOvf := by
  simp only [statusWord, BitVec.getLsbD_append]
  simp [flagBit]

@[simp] theorem statusWord_attemptsField (st : Status) : (statusWord st).extractLsb' 16 4 = st.attempts := by
  simp (disch := decide) only [statusWord, BitVec.extractLsb'_append_eq_of_add_le, BitVec.extractLsb'_append_eq_of_le]
  simp

@[simp] theorem statusWord_lastErrField (st : Status) :
    (statusWord st).extractLsb' 20 2 = lastErrCode st.lastErr := by
  simp (disch := decide) only [statusWord, BitVec.extractLsb'_append_eq_of_add_le, BitVec.extractLsb'_append_eq_of_le]
  simp

/-- The lower of the two reserved fields (R36). -/
theorem statusWord_bit15 (st : Status) : (statusWord st).getLsbD 15 = false := by
  simp only [statusWord, BitVec.getLsbD_append]
  simp

/-- The upper of the two reserved fields (R36). -/
@[simp] theorem statusWord_bits31_22 (st : Status) : (statusWord st).extractLsb' 22 10 = 0 := by
  simp (disch := decide) only [statusWord, BitVec.extractLsb'_append_eq_of_le]
  simp

/-! ### The codes as numbers -/

theorem busStateCode_toNat (b : BusState) :
    (busStateCode b).toNat = (match b with | .idle => 0 | .busy => 1 | .error => 2) := by
  cases b <;> rfl

theorem phaseCode_toNat (p : Phase) :
    (phaseCode p).toNat = (match p with | .idle => 0 | .addressing => 1 | .dataPhase => 2 | .error => 3) := by
  cases p <;> rfl

theorem lastErrCode_toNat (c : Option BusFailure) :
    (lastErrCode c).toNat =
      (match c with | none => 0 | some .noAck => 1 | some .timeout => 2 | some .busWedged => 3) := by
  rcases c with _ | _ | _ | _ <;> rfl

theorem statusWord_reset : statusWord Status.reset = 0 := by decide

end StatusFields

/-- Settles O48, field by field. -/
theorem statusLayout : Obligations.StatusLayout := by
  unfold Obligations.StatusLayout
  intro st
  refine ⟨statusWord_resultField st, ?busState, ?phase, statusWord_busyBit st, statusWord_ovrBit st,
    statusWord_dirBit st, statusWord_rxEndBit st, statusWord_ackBit st, statusWord_calValidBit st,
    statusWord_tempOvfBit st, statusWord_bit15 st, statusWord_attemptsField st, ?lastErr, statusWord_bits31_22 st⟩
  case busState => rw [statusWord_busStateField]; exact busStateCode_toNat st.busState
  case phase => rw [statusWord_phaseField]; exact phaseCode_toNat st.phase
  case lastErr => rw [statusWord_lastErrField]; exact lastErrCode_toNat st.lastErr

/-- Settles O50: the registers and fields are what `State.reset` writes, and `STATUS` as a word is computed from its
fields. -/
theorem resetValues : Obligations.ResetValues :=
  ⟨State.reset, rfl, rfl, rfl, rfl, rfl, rfl, rfl, rfl, rfl, statusWord_reset, rfl, rfl, rfl, rfl, rfl, rfl, rfl, rfl,
    rfl, rfl, rfl, rfl, rfl⟩

section CommandsKeepOvr
/-! ### No command changes `OVR` (R28) -/

/-- A command's body leaves `OVR` as it is, however it ends. -/
def KeepsOvr {α : Type} (body : State → Run α) : Prop := ∀ s, (body s).2.status.ovr = s.status.ovr

theorem complete_ovr {α : Type} {body : State → Run α} (h : KeepsOvr body) (s : State) :
    (complete body s).status.ovr = s.status.ovr := h (opened s)

/-- For a composite only its body from Idle matters (R145). -/
theorem whenIdle_keepsOvr {α : Type} {body : State → Run α}
    (h : ∀ s, s.status.phase = .idle → (body s).2.status.ovr = s.status.ovr) : KeepsOvr (whenIdle body) := by
  intro s
  unfold whenIdle
  split
  · exact h s ‹_›
  · rfl

theorem startProc_keepsOvr (a : Addr7) (d : Dir) : KeepsOvr (startProc a d) := by
  intro s
  rcases startProc_spec a d s with ⟨-, -, h⟩ | ⟨-, hran, -⟩
  · rw [h]; rfl
  · exact hran.frame.ovr

theorem writeByteProc_keepsOvr (b : Byte) : KeepsOvr (writeByteProc b) := by
  intro s
  rcases writeByteProc_spec b s with ⟨-, h⟩ | ⟨-, hran, -⟩
  · rw [h]; rfl
  · exact hran.frame.ovr

theorem readByteProc_keepsOvr (k : Bool) : KeepsOvr (readByteProc k) := by
  intro s
  rcases readByteProc_spec k s with ⟨-, h⟩ | ⟨-, hran, -⟩
  · rw [h]; rfl
  · exact hran.frame.ovr

theorem stopProc_keepsOvr : KeepsOvr stopProc := by
  intro s
  rcases stopProc_spec s with ⟨-, h⟩ | ⟨-, hran, -⟩
  · rw [h]; rfl
  · exact hran.frame.ovr

theorem recoverProc_keepsOvr : KeepsOvr recoverProc := by
  intro s
  rcases recoverProc_spec s with ⟨-, h⟩ | ⟨-, hran, -⟩
  · rw [h]; rfl
  · exact hran.frame.ovr

/-- The commit of `DATA` after a read leaves `OVR` to the read. -/
theorem andThen_setData_ovr (r : Run Byte) :
    (andThen r fun v t => (.ok (), setData v t)).2.status.ovr = r.2.status.ovr := by
  rcases andThen_cases r (fun v t => ((.ok (), setData v t) : Run Unit)) with ⟨v, -, h⟩ | ⟨f, -, h⟩
  · rw [h]; rfl
  · rw [h]

theorem receiveByte_keepsOvr (k : Bool) : KeepsOvr (receiveByte k) := fun s =>
  (andThen_setData_ovr _).trans (readByteProc_keepsOvr k s)

theorem readRegister_ovr (r : Byte) (s : State) (hs : s.status.phase = .idle) :
    (readRegister r s).2.status.ovr = s.status.ovr :=
  (andThen_setData_ovr _).trans (readSensor_accessed r s hs).frame.ovr

theorem regAccess_writeOnce_ovr (r x : Byte) (s : State) (hs : s.status.phase = .idle) :
    (regAccess (writeOnce r x) s).2.status.ovr = s.status.ovr :=
  (regAccessFrom_spec (writeOnce_isAttempt s.cfg s.slaveAddr r x) _ _ s hs rfl rfl).1.frame.ovr

theorem loadStore_ovr (s : State) (hs : s.status.phase = .idle) : (loadStore s).2.status.ovr = s.status.ovr := by
  have hreads := (sensorReads_accessed (calRegs s.cfg) s hs).frame.ovr
  unfold loadStore
  split
  · rfl
  · rcases loadCoefficients_eq s with ⟨-, h⟩ | ⟨_, _, _, _, _, -, h⟩ <;> rw [h] <;> exact hreads

theorem readRawSample_ovr (s : State) (hs : s.status.phase = .idle) :
    (readRawSample s).2.status.ovr = s.status.ovr := by
  have hreads := (sensorReads_accessed (rawRegs s.cfg) s hs).frame.ovr
  rcases readRawSample_eq s with ⟨-, h⟩ | ⟨_, _, _, -, h⟩ <;> rw [h] <;> exact hreads

theorem calcTempProc_keepsOvr : KeepsOvr calcTempProc := by
  intro s
  unfold calcTempProc
  split <;> rfl

/-- No command changes `OVR`, whatever its result. -/
theorem exec_ovr {i : Instr} {s t : State} (h : exec i s = .next t) : t.status.ovr = s.status.ovr := by
  cases i <;> cases h
  case start a d => exact complete_ovr (startProc_keepsOvr a d) s
  case writeByte b => exact complete_ovr (writeByteProc_keepsOvr b) s
  case readByte k => exact complete_ovr (receiveByte_keepsOvr k) s
  case stop => exact complete_ovr stopProc_keepsOvr s
  case recover => exact complete_ovr recoverProc_keepsOvr s
  case readReg r => exact complete_ovr (whenIdle_keepsOvr (readRegister_ovr r)) s
  case writeReg r x => exact complete_ovr (whenIdle_keepsOvr (regAccess_writeOnce_ovr r x)) s
  case loadCal => exact complete_ovr (whenIdle_keepsOvr loadStore_ovr) s
  case readRaw => exact complete_ovr (whenIdle_keepsOvr readRawSample_ovr) s
  case calcTemp => exact complete_ovr calcTempProc_keepsOvr s

end CommandsKeepOvr

section MovesAndOvr
/-! ### What each agent's move does to `OVR` -/

theorem seqTurn_ovr {s t : State} (h : seqTurn s = .next t) : t.status.ovr = s.status.ovr := by
  rcases seqTurn_cases h with ⟨-, rfl⟩ | ⟨-, ⟨i, -, hexec⟩ | ⟨-, rfl⟩⟩
  · rfl
  · exact exec_ovr hexec
  · rfl

theorem windowRead_ovr (off : Nat) (s : State) : (windowRead off s).status.ovr = s.status.ovr := by
  rcases windowRead_cases off s with ⟨v, h⟩ | ⟨-, -, v, h⟩ <;> rw [h] <;> rfl

theorem envStep_ovr (b : BusState) (s : State) : (envStep b s).status.ovr = s.status.ovr := by
  unfold envStep
  split <;> rfl

/-- The offsets a HOST write to which is dropped while `BUSY` = 1: `CMD`, `SLAVE_ADDR` and `RAW` (20_memory.md R66). -/
def DroppedWhileBusy (off : Nat) : Prop := off = 0x00 ∨ off = 0x0C ∨ off = 0x1C

/-- A HOST write to any other offset has no effect (R64). -/
theorem windowWrite_of_not_dropped {off : Nat} (v : Word) (s : State) (h : ¬ DroppedWhileBusy off) :
    windowWrite off v s = s := by
  unfold windowWrite
  split
  · exact absurd (.inl rfl) h
  · exact absurd (.inr (.inl rfl)) h
  · exact absurd (.inr (.inr rfl)) h
  · rfl

theorem windowWrite_ovr_of_dropped {off : Nat} {s : State} (v : Word) (hb : s.status.busy = true)
    (hoff : DroppedWhileBusy off) : (windowWrite off v s).status.ovr = true := by
  rcases hoff with rfl | rfl | rfl <;> simp [windowWrite, unlessBusy, hb]

theorem windowWrite_ovr_of_accept {s : State} (v : Word) (hb : s.status.busy = false) :
    (windowWrite 0x00 v s).status.ovr = false := by
  simp [windowWrite, unlessBusy, hb, accept]

/-- A HOST write that changes `OVR` is a dropped one or an accept. -/
theorem windowWrite_ovr_changed {off : Nat} {v : Word} {s : State}
    (h : (windowWrite off v s).status.ovr ≠ s.status.ovr) :
    (s.status.busy = true ∧ DroppedWhileBusy off) ∨ (s.status.busy = false ∧ off = 0x00) := by
  by_cases hoff : DroppedWhileBusy off
  · rcases windowWrite_cases off v s with hw | ⟨hb, -⟩ | ⟨hb, h0, -⟩ | ⟨-, -, hw⟩ | ⟨-, -, hw⟩
    · exact absurd (by rw [hw]) h
    · exact .inl ⟨hb, hoff⟩
    · exact .inr ⟨hb, h0⟩
    · exact absurd (by rw [hw]; rfl) h
    · exact absurd (by rw [hw]; rfl) h
  · exact absurd (by rw [windowWrite_of_not_dropped v s hoff]) h

/-! ### The step, with host addresses in place of offsets -/

theorem isWordAccess_base_le {a : Access} {c : Config} (h : isWordAccess a c = true) : c.blockBase ≤ a.addr := by
  simp only [isWordAccess, Bool.and_eq_true, decide_eq_true_eq] at h
  exact h.1.2

theorem droppedWhileBusy_sub_iff {addr base : Nat} (h : base ≤ addr) :
    DroppedWhileBusy (addr - base) ↔ addr = base ∨ addr = base + 0x0C ∨ addr = base + 0x1C := by
  unfold DroppedWhileBusy
  omega

/-- A HOST write that goes on has its effect at its offset (R64). -/
theorem step_hostWrite {s t : State} {a : Access} {v : Word} {rest : List Action} (h : step s = .next t)
    (ha : s.agenda = .hostWrite a v :: rest) :
    t = windowWrite (a.addr - s.cfg.blockBase) v (setAgenda rest s) ∧ s.cfg.blockBase ≤ a.addr := by
  rw [step, ha] at h
  obtain ⟨-, -, hword, ht⟩ := hostAccess_cases (effect := fun off => windowWrite off v) h
  exact ⟨ht, isWordAccess_base_le hword⟩

/-- A step that changes `OVR` is a block reset, or a HOST write that is dropped or an accept. -/
theorem step_ovr_changed {s t : State} (h : step s = .next t) (hne : t.status.ovr ≠ s.status.ovr) :
    (∃ rest, s.agenda = .reset :: rest) ∨
      ∃ a v rest, s.agenda = .hostWrite a v :: rest ∧ s.cfg.blockBase ≤ a.addr ∧
        ((s.status.busy = true ∧ DroppedWhileBusy (a.addr - s.cfg.blockBase)) ∨
          (s.status.busy = false ∧ a.addr - s.cfg.blockBase = 0x00)) := by
  rcases step_cases h with ⟨u, rfl, -, hturn⟩ | ⟨a, rest, -, rfl, -⟩ | ⟨a, v, rest, ha, rfl, hword⟩ |
    ⟨b, rest, -, rfl⟩ | ⟨rest, ha, -⟩
  · exact absurd (seqTurn_ovr hturn) hne
  · exact absurd (windowRead_ovr _ _) hne
  · exact .inr ⟨a, v, rest, ha, isWordAccess_base_le hword, windowWrite_ovr_changed (s := setAgenda rest s) hne⟩
  · exact absurd (envStep_ovr b _) hne
  · exact .inl ⟨rest, ha⟩

end MovesAndOvr

/-- Settles O44: forwards by what a HOST write does to `OVR` at each offset, backwards by what a step can do. -/
theorem overrunFlagRecordsDroppedWrites : Obligations.OverrunFlagRecordsDroppedWrites := by
  unfold Obligations.OverrunFlagRecordsDroppedWrites
  intro s t h
  refine ⟨fun a v rest ha => ?_, fun hne => ?_⟩
  · obtain ⟨rfl, hle⟩ := step_hostWrite h ha
    refine ⟨fun hb haddr => ?_, fun hb haddr => ?_⟩
    · exact windowWrite_ovr_of_dropped v hb ((droppedWhileBusy_sub_iff hle).mpr haddr)
    · rw [haddr, Nat.sub_self]
      exact windowWrite_ovr_of_accept v hb
  · refine (step_ovr_changed h hne).imp_right fun ⟨a, v, rest, ha, hle, hmove⟩ => ⟨a, v, rest, ha, ?_⟩
    exact hmove.imp (And.imp_right (droppedWhileBusy_sub_iff hle).mp) (And.imp_right fun h0 => by omega)

end Sys2Proof.Machine
end

section
/-! PROOFS. What a HOST write of a whole aligned word does at each offset of the window (20_memory.md R64, R66). -/

namespace Sys2Proof.Machine

section WordAccess
/-! ### The thread's whole-word access -/

/-- The word access at an aligned offset of the window is to the window, and to a whole register. -/
theorem wordAccess_defined {off : Nat} (c : Config) (hlt : off < 0x40) (halign : off % 4 = 0) :
    touchesWindow ⟨.thread, c.blockBase + off, 4⟩ c = true ∧ isWordAccess ⟨.thread, c.blockBase + off, 4⟩ c = true := by
  have hin : c.blockBase + off < c.blockBase + windowSize := Nat.add_lt_add_left hlt _
  have hafter : c.blockBase < c.blockBase + off + 4 := by omega
  simp [touchesWindow, isWordAccess, hin, hafter, halign]

/-- Such an access always goes on, with its effect at its offset (R63, R64). -/
theorem hostAccess_word {off : Nat} (effect : Nat → State → State) (s : State) (hlt : off < 0x40)
    (halign : off % 4 = 0) :
    hostAccess ⟨.thread, s.cfg.blockBase + off, 4⟩ effect s = .next (effect off s) := by
  obtain ⟨htouch, hword⟩ := wordAccess_defined s.cfg hlt halign
  simp only [hostAccess, htouch, hword, if_true, Nat.add_sub_cancel_left]

/-- The step of a HOST write listed first. -/
theorem step_hostWrite_word {s : State} {off : Nat} {v : Word} {rest : List Action} (hlt : off < 0x40)
    (halign : off % 4 = 0) (ha : s.agenda = .hostWrite ⟨.thread, s.cfg.blockBase + off, 4⟩ v :: rest) :
    step s = .next (windowWrite off v (setAgenda rest s)) := by
  rw [step, ha]
  exact hostAccess_word (fun off => windowWrite off v) (setAgenda rest s) hlt halign

end WordAccess

section WriteAtOffset
/-! ### The write column of the register map -/

variable {s : State} (v : Word)

/-- The low bits of a word, as the field that keeps them. -/
theorem extractLsb'_zero_eq_ofNat (n : Nat) : v.extractLsb' 0 n = BitVec.ofNat n v.toNat := by
  rw [BitVec.extractLsb', Nat.shiftRight_zero]

theorem unlessBusy_of_idle (write : State → State) (hb : s.status.busy = false) : unlessBusy write s = write s := by
  simp [unlessBusy, hb]

theorem unlessBusy_of_busy (write : State → State) (hb : s.status.busy = true) :
    unlessBusy write s = setOvr true s := by
  simp [unlessBusy, hb]

theorem windowWrite_cmd (hb : s.status.busy = false) : windowWrite 0x00 v s = accept v s :=
  unlessBusy_of_idle _ hb

theorem windowWrite_slaveAddr (hb : s.status.busy = false) :
    windowWrite 0x0C v s = setSlaveAddr (BitVec.ofNat 7 v.toNat) s := by
  rw [← extractLsb'_zero_eq_ofNat]
  exact unlessBusy_of_idle _ hb

theorem windowWrite_raw (hb : s.status.busy = false) :
    windowWrite 0x1C v s = setRaw (BitVec.ofNat 20 v.toNat) s := by
  rw [← extractLsb'_zero_eq_ofNat]
  exact unlessBusy_of_idle _ hb

/-- A dropped write changes nothing but `OVR` (R66). -/
theorem windowWrite_of_dropped {off : Nat} (hb : s.status.busy = true) (hoff : DroppedWhileBusy off) :
    windowWrite off v s = setOvr true s := by
  rcases hoff with rfl | rfl | rfl <;> exact unlessBusy_of_busy _ hb

end WriteAtOffset

/-- Settles O43: the access goes on, and its effect is the one of its offset. -/
theorem hostWriteEffects : Obligations.HostWriteEffects := by
  unfold Obligations.HostWriteEffects
  intro s off v rest hlt halign ha
  refine ⟨_, step_hostWrite_word hlt halign ha, fun hb => ⟨?accepts, ?slaveAddr, ?raw⟩, ?dropped, ?ignored⟩
  case accepts => rintro rfl; exact windowWrite_cmd v hb
  case slaveAddr => rintro rfl; exact windowWrite_slaveAddr v hb
  case raw => rintro rfl; exact windowWrite_raw v hb
  case dropped => exact fun hb hoff => windowWrite_of_dropped v hb hoff
  case ignored =>
    intro hcmd haddr hraw
    exact windowWrite_of_not_dropped v _ fun hoff => hoff.elim hcmd (·.elim haddr hraw)

end Sys2Proof.Machine
end

section
/-! PROOFS. Which words the decoder accepts (30_encoding.md R86), and how every other word completes. -/

namespace Sys2Proof

section DecoderAccepts
/-! ### The words the decoder accepts -/

/-- A guarded decoding accepts where its guard lets the word through and the rest accepts. -/
theorem exists_guard_ok_iff {p : Prop} [Decidable p] {e : IllegalWord} {r : Except IllegalWord Instr} :
    (∃ i, (if p then r else .error e) = .ok i) ↔ p ∧ ∃ i, r = .ok i := by
  split <;> simp [*]

/-- A command without operands needs `REG` and `ARG` at 0 (R82). -/
theorem exists_decodePlain_ok_iff (w : Word) (j : Instr) :
    (∃ i, decodePlain w j = .ok i) ↔ regField w = 0 ∧ argField w = 0 := by
  simp [decodePlain, exists_guard_ok_iff]

/-- The decoder accepts exactly the words of R86's five lines. It checks `RSV` first; for each opcode the guards that
follow are the lines that speak of that opcode. -/
theorem exists_decode_ok_iff (w : Word) :
    (∃ i, decode w = .ok i) ↔
      ((opField w).toNat ∈ [0x1, 0x2, 0x3, 0x4, 0x5, 0x6, 0x7, 0x8, 0x9, 0xA] ∧
        rsvField w = 0 ∧
        ((opField w).toNat ∈ [0x6, 0x7] ∨ regField w = 0) ∧
        ((opField w).toNat ∉ [0x3] ∨ w.extractLsb' 1 7 = 0) ∧
        ((opField w).toNat ∉ [0x4, 0x5, 0x6, 0x8, 0x9, 0xA] ∨ argField w = 0)) := by
  rw [decode, ite_not, exists_guard_ok_iff, and_left_comm]
  refine and_congr_right fun _ => ?_
  split
  case h_1 hop | h_2 hop | h_3 hop | h_6 hop => simp [hop, exists_guard_ok_iff]
  case h_4 hop | h_5 hop | h_8 hop | h_9 hop | h_10 hop => simp [hop, exists_decodePlain_ok_iff]
  case h_7 hop => simp [hop]
  case h_11 => exact iff_of_false (by simp) fun ⟨hop, _⟩ => by simp_all

end DecoderAccepts

namespace Machine

section RefusedWord
/-! ### The completion of a word the decoder refuses -/

/-- The step of a state about to complete is the SEQ's completion, the consumed move taken off the agenda (R105). -/
theorem step_of_aboutToComplete {s : State} (h : AboutToComplete s) : step s = runCommand (laterMoves s) := by
  obtain ⟨hbusy, hagenda | ⟨rest, hagenda⟩⟩ := h
  · have hlater : laterMoves s = s := by rw [laterMoves, hagenda, List.tail_nil, ← hagenda]
    simp only [step, hagenda, seqTurn, hbusy, if_true, hlater]
  · have hlater : laterMoves s = setAgenda rest s := by simp [laterMoves, hagenda, setAgenda]
    simp [step, hagenda, act, seqTurn, hbusy, hlater]

/-- A refused word completes as a failed check with ILLEGAL_COMMAND (R86). -/
theorem runCommand_of_refused {s : State} (h : ∀ i, decode s.cmd ≠ .ok i) :
    runCommand s = .next (failedCheck .illegalCommand s) := by
  unfold runCommand
  split
  next i hi => exact absurd hi (h i)
  next => exact congrArg _ (complete_raise _ s)

end RefusedWord

/-- Settles O3: the decoder's guards are R86's lines, and the SEQ's completion of a refused word is a failed check. -/
theorem illegalWordsCompleteIllegal : Obligations.IllegalWordsCompleteIllegal := by
  unfold Obligations.IllegalWordsCompleteIllegal
  refine ⟨exists_decode_ok_iff, fun s hs hrefused => ?_⟩
  rw [step_of_aboutToComplete hs]
  exact runCommand_of_refused (s := laterMoves s) hrefused

end Machine
end Sys2Proof
end

section
/-! PROOFS. The bounded wait in terms of ENV's answers in order (40_transport.md R100). -/

namespace Sys2Proof.Machine

section BoundedWait
/-! ### A bounded wait takes the polls up to the first Ready -/

variable {k : WaitKind} {e : Env}

theorem waitReady_of_poll_ready (p : Nat) (h : (drawReady k e).1 = true) :
    waitReady k (p + 1) e = (true, (drawReady k e).2) := if_pos h

theorem waitReady_of_poll_notReady (p : Nat) (h : (drawReady k e).1 = false) :
    waitReady k (p + 1) e = waitReady k p (drawReady k e).2 := if_neg (by simp [h])

/-- Ready at poll `n`, with `p` polls allowed. -/
theorem waitReady_of_first_ready {n p : Nat} (hn : n < p) (hready : readySample k n e = true)
    (hfirst : ∀ m, m < n → readySample k m e = false) : waitReady k p e = (true, readyDrawn k (n + 1) e) := by
  induction n generalizing p e with
  | zero =>
    obtain ⟨p, rfl⟩ := Nat.exists_eq_add_one.mpr hn
    exact waitReady_of_poll_ready _ hready
  | succ n ih =>
    obtain ⟨p, rfl⟩ := Nat.exists_eq_add_one.mpr (Nat.zero_lt_of_lt hn)
    have hpoll : (drawReady k e).1 = false := hfirst 0 n.succ_pos
    rw [waitReady_of_poll_notReady p hpoll]
    exact ih (Nat.lt_of_succ_lt_succ hn) hready fun m hm => hfirst (m + 1) (Nat.succ_lt_succ hm)

/-- Expired after `p` polls, none of them Ready. -/
theorem waitReady_of_none_ready {p : Nat} (hnone : ∀ m, m < p → readySample k m e = false) :
    waitReady k p e = (false, readyDrawn k p e) := by
  induction p generalizing e with
  | zero => rfl
  | succ p ih =>
    have hpoll : (drawReady k e).1 = false := hnone 0 p.succ_pos
    rw [waitReady_of_poll_notReady p hpoll]
    exact ih fun m hm => hnone (m + 1) (Nat.succ_lt_succ hm)

theorem waitFor_of_waitReady {s : State} {b : Bool} (h : waitReady k s.cfg.pollLimit s.env = (b, e)) :
    waitFor k s = (b, setEnv e s) := by
  simp [waitFor, h]

end BoundedWait

/-- Settles O19: the polls are those of `waitReady`, by induction on the index of the first Ready and on the polls left,
and their number is bounded by `waitFor_ran`. -/
theorem boundedWaitPollsUpToFirstReady : Obligations.BoundedWaitPollsUpToFirstReady := by
  unfold Obligations.BoundedWaitPollsUpToFirstReady
  intro k s
  refine ⟨fun n hn hready hfirst => ?ready, fun hnone => ?expired, (waitFor_ran k s).drawn_le⟩
  case ready => exact waitFor_of_waitReady (waitReady_of_first_ready hn hready hfirst)
  case expired => exact waitFor_of_waitReady (waitReady_of_none_ready hnone)

end Sys2Proof.Machine
end

section
/-! PROOFS. How a primitive command completes (40_transport.md R105), and START and WRITE_BYTE in every outcome (R110,
R112). -/

namespace Sys2Proof.Machine

section PrimitiveCommands
/-! ### The commands' procedures -/

theorem exec_start (a : Addr7) (d : Dir) (s : State) : exec (.start a d) s = .next (complete (startProc a d) s) :=
  rfl

theorem exec_writeByte (b : Byte) (s : State) : exec (.writeByte b) s = .next (complete (writeByteProc b) s) :=
  rfl

theorem exec_readByte (k : Bool) (s : State) : exec (.readByte k) s = .next (complete (receiveByte k) s) :=
  rfl

theorem exec_stop (s : State) : exec .stop s = .next (complete stopProc s) :=
  rfl

theorem exec_recover (s : State) : exec .recover s = .next (complete recoverProc s) :=
  rfl

/-- A primitive leaves `ATTEMPTS` and `LASTERR` as the start of the completion cleared them, so a body that ends OK
leaves an opened state. -/
theorem complete_of_ok {α : Type} {body : State → Run α} {s t : State} {v : α}
    (h : body (opened s) = (.ok v, opened t)) : complete body s = endedOk t := by
  rw [complete_eq, h]
  rfl

/-- A body that ends with a bus failure (R103). -/
theorem complete_of_busFail {α : Type} {body : State → Run α} {s t : State} {c : BusFailure}
    (h : body (opened s) = busFail c (opened t)) : complete body s = endedFailed c t := by
  rw [complete_eq, h]
  rfl

end PrimitiveCommands

section Acknowledge
/-! ### The wait and the acknowledge that START and WRITE_BYTE share -/

variable {k : WaitKind} {s : State}

theorem awaitAck_of_expired (hw : (waitReady k s.cfg.pollLimit s.env).1 = false) :
    awaitAck k s = busFail .timeout (setEnv (waitReady k s.cfg.pollLimit s.env).2 s) := by
  simp [awaitAck, waitFor, hw]

theorem awaitAck_of_nack (hw : (waitReady k s.cfg.pollLimit s.env).1 = true)
    (ha : (drawAck (waitReady k s.cfg.pollLimit s.env).2).1 = false) :
    awaitAck k s =
      busFail .noAck (setAck false (setEnv (drawAck (waitReady k s.cfg.pollLimit s.env).2).2 s)) := by
  simp [awaitAck, waitFor, sampleAck, hw, ha, setAck, setEnv]

theorem awaitAck_of_ack (hw : (waitReady k s.cfg.pollLimit s.env).1 = true)
    (ha : (drawAck (waitReady k s.cfg.pollLimit s.env).2).1 = true) :
    awaitAck k s = (.ok (), setAck true (setEnv (drawAck (waitReady k s.cfg.pollLimit s.env).2).2 s)) := by
  simp [awaitAck, waitFor, sampleAck, hw, ha, setAck, setEnv]

end Acknowledge

section Start
/-! ### START -/

/-- START gets as far as its address byte (R110): after an Idle sample from Idle, or from DataPhase without a sample.
`first` is the condition it sends, `e` what is then left of ENV's answers and `bs` the value of `BUS_STATE`. -/
def TakesBus (s : State) (first : BusEvent) (e : Env) (bs : BusState) : Prop :=
  (s.status.phase = .idle ∧ (drawBusState s.env).1 = .idle ∧ first = .startCond ∧
      e = (drawBusState s.env).2 ∧ bs = .idle) ∨
    (s.status.phase = .dataPhase ∧ first = .repStart ∧ e = s.env ∧ bs = s.status.busState)

/-- The state in which START waits for the address to be sent. -/
def addressed (a : Addr7) (d : Dir) (first : BusEvent) (e : Env) (bs : BusState) (s : State) : State :=
  { s with env := e
           busLog := s.busLog ++ [first, .addrByte (addressByte a d)]
           status := { s.status with busState := bs, phase := .addressing, dir := d, rxEnd := false } }

variable {a : Addr7} {d : Dir} {s : State} {first : BusEvent} {e : Env} {bs : BusState}

theorem startProc_of_illegal (hidle : s.status.phase ≠ .idle) (hdata : s.status.phase ≠ .dataPhase) :
    startProc a d s = raise .sequenceError s := by
  rcases startProc_spec a d s with ⟨-, -, h⟩ | ⟨hlegal, -⟩
  · exact h
  · exact absurd hlegal (not_or.mpr ⟨hidle, hdata⟩)

theorem startProc_of_wedged (hp : s.status.phase = .idle) (hb : (drawBusState s.env).1 ≠ .idle) :
    startProc a d s =
      busFail .busWedged (setBusState (drawBusState s.env).1 (setEnv (drawBusState s.env).2 s)) := by
  simp [startProc, hp, sampleBus, hb]

/-- Both ways to the address byte meet in one state. -/
theorem startProc_of_takesBus (h : TakesBus s first e bs) :
    startProc a d s =
      andThen (awaitAck .addrDone (addressed a d first e bs s)) fun _ t => (.ok (), setPhase .dataPhase t) := by
  rcases h with ⟨hp, hb, rfl, rfl, rfl⟩ | ⟨hp, rfl, rfl, rfl⟩
  · simp [startProc, hp, sampleBus, hb, addressSlave, addressed, emit, setRxEnd, setDir, setPhase, setBusState, setEnv]
  · simp [startProc, hp, addressSlave, addressed, emit, setRxEnd, setDir, setPhase]

/-- The command word of START, with the address and the direction bit apart (R83). -/
theorem encode_start (a : Addr7) (d : Dir) : encode (.start a d) = 0x1#4 ++ 0#12 ++ 0#8 ++ a ++ d.bit :=
  (BitVec.append_assoc (x₁ := 0x1#4 ++ 0#12 ++ 0#8) (x₂ := a) (x₃ := d.bit)).symm

end Start

/-- Settles O10: the ways in are `startProc_of_illegal`, `startProc_of_wedged` and `startProc_of_takesBus`; after the
last, the outcome is that of the wait and the acknowledge. -/
theorem startOutcomes : Obligations.StartOutcomes := by
  unfold Obligations.StartOutcomes
  intro a d s
  simp only [exec_start]
  refine ⟨encode_start a d, fun hidle hdata => ?illegal, fun hp hb => ?wedged, fun first e bs h => ?taken⟩
  case illegal => exact congrArg _ (complete_of_raise (startProc_of_illegal hidle hdata))
  case wedged => exact congrArg _ (complete_of_busFail (startProc_of_wedged (s := opened s) hp hb))
  case taken =>
    have hproc := startProc_of_takesBus (a := a) (d := d) (s := opened s) h
    refine ⟨_, rfl, fun hw => ?expired, fun hw => ⟨fun ha => ?nack, fun ha => ?ack⟩⟩
    case expired =>
      rw [awaitAck_of_expired hw] at hproc
      exact congrArg _ (complete_of_busFail hproc)
    case nack =>
      rw [awaitAck_of_nack hw ha] at hproc
      exact congrArg _ (complete_of_busFail hproc)
    case ack =>
      rw [awaitAck_of_ack hw ha] at hproc
      exact congrArg _ (complete_of_ok hproc)

section WriteByte
/-! ### WRITE_BYTE -/

theorem writeByteProc_of_illegal {s : State} (b : Byte)
    (h : ¬(s.status.phase = .dataPhase ∧ s.status.dir = .write)) : writeByteProc b s = raise .sequenceError s :=
  if_neg h

theorem writeByteProc_of_legal {s : State} (b : Byte) (hp : s.status.phase = .dataPhase)
    (hd : s.status.dir = .write) : writeByteProc b s = awaitAck .txDone (emit (.txByte b) s) :=
  if_pos ⟨hp, hd⟩

end WriteByte

/-- Settles O11: a legal WRITE_BYTE emits its byte, and its outcome is that of the wait and the acknowledge. -/
theorem writeByteOutcomes : Obligations.WriteByteOutcomes := by
  unfold Obligations.WriteByteOutcomes
  intro b s
  simp only [exec_writeByte]
  refine ⟨rfl, fun hillegal => ?illegal, fun hp hd => ?legal⟩
  case illegal => exact congrArg _ (complete_of_raise (writeByteProc_of_illegal b hillegal))
  case legal =>
    have hproc := writeByteProc_of_legal (s := opened s) b hp hd
    refine ⟨_, rfl, fun hw => ?expired, fun hw => ⟨fun ha => ?nack, fun ha => ?ack⟩⟩
    case expired => exact congrArg _ (complete_of_busFail (hproc.trans (awaitAck_of_expired hw)))
    case nack => exact congrArg _ (complete_of_busFail (hproc.trans (awaitAck_of_nack hw ha)))
    case ack => exact congrArg _ (complete_of_ok (hproc.trans (awaitAck_of_ack hw ha)))

end Sys2Proof.Machine
end

section
/-! PROOFS. READ_BYTE in every outcome (40_transport.md R116). -/

namespace Sys2Proof.Machine

section ReadByte
/-! ### READ_BYTE -/

/-- What a READ_BYTE that receives `v` leaves, `e` being what is left of ENV's answers. A NACK sets `RXEND`. -/
def received (k : Bool) (v : Byte) (e : Env) (s : State) : State :=
  { s with env := e
           data := v
           busLog := s.busLog ++ [.rxByte v, .masterAck k]
           status := { s.status with rxEnd := !k } }

/-- Writing `RXEND` on a NACK only is writing the complement of the acknowledge bit, `RXEND` being 0 before. -/
theorem setRxEnd_unless_ack {t : State} (k : Bool) (hx : t.status.rxEnd = false) :
    (if k then t else setRxEnd true t) = setRxEnd (!k) t := by
  cases k
  case false => rfl
  case true => simp [setRxEnd, ← hx]

variable {k : Bool} {s : State}

theorem receiveByte_of_illegal
    (h : ¬(s.status.phase = .dataPhase ∧ s.status.dir = .read ∧ s.status.rxEnd = false)) :
    receiveByte k s = raise .sequenceError s := by
  simp only [receiveByte, readByteProc, if_neg h]
  rfl

theorem receiveByte_of_expired
    (h : s.status.phase = .dataPhase ∧ s.status.dir = .read ∧ s.status.rxEnd = false)
    (hw : (waitReady .rxDone s.cfg.pollLimit s.env).1 = false) :
    receiveByte k s = busFail .timeout (setEnv (waitReady .rxDone s.cfg.pollLimit s.env).2 s) := by
  simp only [receiveByte, readByteProc, if_pos h, waitFor, hw]
  rfl

theorem receiveByte_of_ready
    (h : s.status.phase = .dataPhase ∧ s.status.dir = .read ∧ s.status.rxEnd = false)
    (hw : (waitReady .rxDone s.cfg.pollLimit s.env).1 = true) :
    receiveByte k s = (.ok (),
      received k (drawRxByte (waitReady .rxDone s.cfg.pollLimit s.env).2).1
        (drawRxByte (waitReady .rxDone s.cfg.pollLimit s.env).2).2 s) := by
  have ⟨_, _, hx⟩ := h
  simp only [receiveByte, readByteProc, if_pos h, waitFor, hw, if_true, andThen_ok]
  rw [setRxEnd_unless_ack k (by simpa using hx)]
  simp [received, emit, setEnv, setData, setRxEnd]

/-- The command word of READ_BYTE: the acknowledge bit alone in `ARG` (R84). -/
theorem encode_readByte (k : Bool) :
    encode (.readByte k) = 0x3#4 ++ 0#12 ++ 0#8 ++ 0#7 ++ BitVec.ofBool k := by
  cases k <;> rfl

end ReadByte

/-- Settles O12: a legal READ_BYTE has the two outcomes of its wait, Ready with the byte received. -/
theorem readByteOutcomes : Obligations.ReadByteOutcomes := by
  unfold Obligations.ReadByteOutcomes
  intro k s
  simp only [exec_readByte]
  refine ⟨encode_readByte k, fun hillegal => ?illegal, fun hp hd hx => ⟨fun hw => ?expired, fun hw => ⟨_, rfl, ?ready⟩⟩⟩
  case illegal => exact congrArg _ (complete_of_raise (receiveByte_of_illegal hillegal))
  case expired => exact congrArg _ (complete_of_busFail (receiveByte_of_expired (s := opened s) ⟨hp, hd, hx⟩ hw))
  case ready => exact congrArg _ (complete_of_ok (receiveByte_of_ready (s := opened s) ⟨hp, hd, hx⟩ hw))

end Sys2Proof.Machine
end

section
/-! PROOFS. STOP and RECOVER in every outcome (40_transport.md R122, R130), and the transaction without a data byte
(R113). -/

namespace Sys2Proof.Machine

section StopPoll
/-! ### STOP's wait takes the samples up to the first Idle -/

variable {s : State}

theorem stopPoll_of_sample_idle (p : Nat) (h : (drawBusState s.env).1 = .idle) :
    stopPoll (p + 1) s = (.ok (), toIdle (setBusState .idle (setEnv (drawBusState s.env).2 s))) :=
  (if_pos h).trans (by simp [sampleBus, h])

/-- Busy and Error are treated alike. -/
theorem stopPoll_of_sample_not_idle (p : Nat) (h : (drawBusState s.env).1 ≠ .idle) :
    stopPoll (p + 1) s = stopPoll p (setBusState (drawBusState s.env).1 (setEnv (drawBusState s.env).2 s)) :=
  if_neg h

/-- Idle at sample `n`, with `p` samples allowed. -/
theorem stopPoll_of_first_idle {n p : Nat} (hn : n < p) (hidle : busSample n s.env = .idle)
    (hfirst : ∀ m, m < n → busSample m s.env ≠ .idle) :
    stopPoll p s = (.ok (), toIdle (setBusState .idle (setEnv (busDrawn (n + 1) s.env) s))) := by
  induction n generalizing p s with
  | zero =>
    obtain ⟨p, rfl⟩ := Nat.exists_eq_add_one.mpr hn
    exact stopPoll_of_sample_idle _ hidle
  | succ n ih =>
    obtain ⟨p, rfl⟩ := Nat.exists_eq_add_one.mpr (Nat.zero_lt_of_lt hn)
    have hsample : (drawBusState s.env).1 ≠ .idle := hfirst 0 n.succ_pos
    rw [stopPoll_of_sample_not_idle p hsample]
    exact ih (Nat.lt_of_succ_lt_succ hn) hidle fun m hm => hfirst (m + 1) (Nat.succ_lt_succ hm)

/-- None of `p + 1` samples Idle: `BUS_STATE` holds the last. -/
theorem stopPoll_of_none_idle {p : Nat} (hnone : ∀ m, m < p + 1 → busSample m s.env ≠ .idle) :
    stopPoll (p + 1) s =
      busFail .busWedged (setBusState (busSample p s.env) (setEnv (busDrawn (p + 1) s.env) s)) := by
  induction p generalizing s with
  | zero => exact stopPoll_of_sample_not_idle 0 (hnone 0 Nat.one_pos)
  | succ p ih =>
    have hsample : (drawBusState s.env).1 ≠ .idle := hnone 0 (p + 1).succ_pos
    rw [stopPoll_of_sample_not_idle (p + 1) hsample]
    exact ih fun m hm => hnone (m + 1) (Nat.succ_lt_succ hm)

theorem stopProc_of_illegal (h : s.status.phase ≠ .dataPhase) : stopProc s = raise .sequenceError s := if_neg h

theorem stopProc_of_legal (h : s.status.phase = .dataPhase) :
    stopProc s = stopPoll s.cfg.pollLimit (emit .stopCond s) := if_pos h

end StopPoll

/-- Settles O13: STOP's outcome is that of its wait, whose samples are counted by induction. -/
theorem stopOutcomes : Obligations.StopOutcomes := by
  unfold Obligations.StopOutcomes
  intro s
  simp only [exec_stop]
  refine ⟨rfl, fun hillegal => ?illegal, fun hp => ?legal⟩
  case illegal => exact congrArg _ (complete_of_raise (stopProc_of_illegal hillegal))
  case legal =>
    have hproc := stopProc_of_legal (s := opened s) hp
    refine ⟨fun n hn hidle hfirst => ?idle, fun hnone hlimit => ?wedged⟩
    case idle =>
      exact congrArg _ (complete_of_ok (hproc.trans (stopPoll_of_first_idle hn hidle hfirst)))
    case wedged =>
      obtain ⟨p, hlimit⟩ := Nat.exists_eq_add_one.mpr hlimit
      rw [opened_cfg, hlimit] at hproc
      rw [hlimit] at hnone ⊢
      exact congrArg _ (complete_of_busFail (hproc.trans (stopPoll_of_none_idle hnone)))

section Recover
/-! ### RECOVER -/

/-- What a RECOVER leaves: the bus is Idle, and was forced there if it did not sample so. -/
def recovered (s : State) : State :=
  { s with env := (drawBusState s.env).2
           busLog := s.busLog ++ (if (drawBusState s.env).1 = .idle then [] else [.forcedStop, .forceIdle])
           status := { s.status with busState := .idle, phase := .idle, dir := .write, rxEnd := false } }

theorem recoverProc_of_illegal {s : State} (hidle : s.status.phase ≠ .idle) (herror : s.status.phase ≠ .error) :
    recoverProc s = raise .sequenceError s := if_neg (not_or.mpr ⟨hidle, herror⟩)

theorem recoverProc_of_legal {s : State} (h : s.status.phase = .idle ∨ s.status.phase = .error) :
    recoverProc s = (.ok (), recovered s) := by
  simp only [recoverProc, if_pos h]
  by_cases hb : (drawBusState s.env).1 = .idle
  · simp [sampleBus, hb, recovered, toIdle, setBusState, setEnv, setPhase, setDir, setRxEnd]
  · simp [sampleBus, hb, recovered, forceIdle, emit, toIdle, setBusState, setEnv, setPhase, setDir, setRxEnd]

end Recover

/-- Settles O14: a legal RECOVER has one outcome, `recovered`. -/
theorem recoverOutcomes : Obligations.RecoverOutcomes := by
  unfold Obligations.RecoverOutcomes
  intro s
  simp only [exec_recover]
  refine ⟨rfl, fun hidle herror => ?illegal, fun hlegal => ?legal⟩
  case illegal => exact congrArg _ (complete_of_raise (recoverProc_of_illegal hidle herror))
  case legal => exact congrArg _ (complete_of_ok (recoverProc_of_legal (s := opened s) hlegal))

section ZeroByteTransaction
/-! ### START, then STOP -/

/-- A START that completes OK leaves `PHASE` = DataPhase, where STOP is legal. -/
theorem complete_start_of_ok {a : Addr7} {d : Dir} {s : State}
    (h : (complete (startProc a d) s).status.result = none) :
    (complete (startProc a d) s).status.phase = .dataPhase ∧ (complete (startProc a d) s).cfg = s.cfg := by
  rw [complete_result] at h
  rcases startProc_spec a d (opened s) with ⟨-, -, hraise⟩ | ⟨-, hran, -, ⟨-, hp, -⟩ | ⟨⟨c, hc, -⟩, -⟩⟩
  · rw [hraise] at h
    exact absurd h (Option.some_ne_none _)
  · exact ⟨hp, hran.frame.cfg⟩
  · rw [hc] at h
    exact absurd h (Option.some_ne_none _)

/-- From DataPhase a STOP passes its legality check. -/
theorem complete_stop_result_ne_sequenceError {s : State} (hp : s.status.phase = .dataPhase) :
    (complete stopProc s).status.result ≠ some .sequenceError := by
  rw [complete_result]
  rcases stopProc_spec (opened s) with ⟨hillegal, -⟩ | ⟨-, -, -, ⟨hok, -⟩ | ⟨-, hwedged, -⟩⟩
  · exact absurd hp hillegal
  · simp [hok, Ended.result]
  · simp [hwedged, Ended.result]

end ZeroByteTransaction

/-- Settles O17: START leaves STOP legal, and an Idle first sample is the OK outcome of `stopOutcomes`. -/
theorem zeroByteTransactionIsLegal : Obligations.ZeroByteTransactionIsLegal := by
  unfold Obligations.ZeroByteTransactionIsLegal
  intro a d s t hstart hresult
  rw [exec_start] at hstart
  cases hstart
  obtain ⟨hp, hcfg⟩ := complete_start_of_ok hresult
  refine ⟨_, exec_stop _, complete_stop_result_ne_sequenceError hp, fun hidle hlimit => ?_⟩
  obtain ⟨-, -, hlegal⟩ := stopOutcomes (complete (startProc a d) s)
  obtain ⟨hok, -⟩ := hlegal hp
  have hstop := hok 0 (by rw [hcfg]; exact hlimit) hidle fun _ hm => absurd hm (Nat.not_lt_zero _)
  rw [exec_stop] at hstop
  injection hstop with hstop
  rw [hstop]
  exact ⟨rfl, rfl⟩

end Sys2Proof.Machine
end

section
/-! PROOFS. The composites' `PHASE` check (41_register_access.md R145), and READ_REG in every outcome (R146, R147). -/

namespace Sys2Proof.Machine

section CompositeCommands
/-! ### The composites and their `PHASE` check -/

theorem exec_readReg (r : Byte) (s : State) :
    exec (.readReg r) s = .next (complete (whenIdle (readRegister r)) s) :=
  rfl

theorem exec_writeReg (r x : Byte) (s : State) :
    exec (.writeReg r x) s = .next (complete (whenIdle (regAccess (writeOnce r x))) s) :=
  rfl

theorem exec_loadCal (s : State) : exec .loadCal s = .next (complete (whenIdle loadStore) s) :=
  rfl

theorem exec_readRaw (s : State) : exec .readRaw s = .next (complete (whenIdle readRawSample) s) :=
  rfl

theorem whenIdle_of_idle {α : Type} (body : State → Run α) {s : State} (h : s.status.phase = .idle) :
    whenIdle body s = body s := if_pos h

theorem whenIdle_of_not_idle {α : Type} (body : State → Run α) {s : State} (h : s.status.phase ≠ .idle) :
    whenIdle body s = raise .sequenceError s := if_neg h

/-- From Idle the check is passed, and the completion is the body's own. -/
theorem complete_whenIdle_of_idle {α : Type} (body : State → Run α) {s : State} (h : s.status.phase = .idle) :
    complete (whenIdle body) s = complete body s := by
  rw [complete_eq, complete_eq, whenIdle_of_idle body (s := opened s) h]

/-- In any other `PHASE` the body is not run. -/
theorem complete_whenIdle_of_not_idle {α : Type} (body : State → Run α) {s : State} (h : s.status.phase ≠ .idle) :
    complete (whenIdle body) s = failedCheck .sequenceError s :=
  complete_of_raise (whenIdle_of_not_idle body (s := opened s) h)

end CompositeCommands

/-- Settles O22: the four composites share one check, and it raises before any effect. -/
theorem compositesNeedIdle : Obligations.CompositesNeedIdle := by
  unfold Obligations.CompositesNeedIdle
  rintro s hp i (⟨r, rfl⟩ | ⟨r, x, rfl⟩ | rfl | rfl)
  · rw [exec_readReg, complete_whenIdle_of_not_idle _ hp]
  · rw [exec_writeReg, complete_whenIdle_of_not_idle _ hp]
  · rw [exec_loadCal, complete_whenIdle_of_not_idle _ hp]
  · rw [exec_readRaw, complete_whenIdle_of_not_idle _ hp]

section ReadReg
/-! ### READ_REG from Idle -/

variable {r : Byte} {s : State}

/-- On OK the byte of the access is committed to `DATA` (R147). -/
theorem complete_readRegister_of_ok {v : Byte} (h : (readSensor r (opened s)).1 = .ok v) :
    complete (readRegister r) s = setBusy false (setResult none (setData v (readSensor r (opened s)).2)) := by
  have hbody : readRegister r (opened s) = (.ok (), setData v (readSensor r (opened s)).2) := by
    simp only [readRegister, andThen, h]
  rw [complete_eq, hbody]
  rfl

/-- A failed access reports its code and commits nothing (R147). -/
theorem complete_readRegister_of_raised {f : Failure} (h : (readSensor r (opened s)).1 = .raised f) :
    complete (readRegister r) s = setBusy false (setResult (some f) (readSensor r (opened s)).2) := by
  have hbody : readRegister r (opened s) = raise f (readSensor r (opened s)).2 := by
    simp only [readRegister, andThen, h, raise]
  rw [complete_eq, hbody]
  rfl

/-- Beyond what the transport writes, completion writes `RESULT` and `BUSY` only: the fields it clears first, `ATTEMPTS`
and `LASTERR`, are among the transport's (R105). -/
theorem onlyTransportAndResult_of_opened {t : State} (h : OnlyTransport (opened s) t) (e : Option Failure) :
    OnlyTransportAndResult s (setBusy false (setResult e t)) := by
  unfold OnlyTransportAndResult OnlyTransport at *
  rw [h]
  rfl

/-- With `RETRY_LIMIT` at most 15 an attempt number fits `ATTEMPTS` (R9, R34). -/
theorem attempt_toNat {j : Nat} (h : j ≤ 15) : (BitVec.ofNat 4 j).toNat = j :=
  (BitVec.toNat_ofNat j 4).trans (Nat.mod_eq_of_lt (by omega))

end ReadReg

/-- Settles O25: the completion of one register access (`readSensor_spec`), with `DATA` committed where it ended OK. -/
theorem readRegOutcomes : Obligations.ReadRegOutcomes := by
  unfold Obligations.ReadRegOutcomes
  rintro r s hs ⟨-, hpos, hmax⟩
  obtain ⟨hacc, hp, hd, hx, -, hends⟩ := readSensor_spec r (opened s) hs hpos
  have hdata : (readSensor r (opened s)).2.data = s.data := hacc.frame.data
  have hframe (e : Option Failure) : OnlyTransportAndResult s
      { setBusy false (setResult e (readSensor r (opened s)).2) with data := s.data } := by
    rw [← hdata]
    exact onlyTransportAndResult_of_opened hacc.frame e
  refine ⟨_, exec_readReg r s, ?_⟩
  rw [complete_whenIdle_of_idle _ hs]
  rcases hends with ⟨v, j, l, hok, hj, hjmax, hatt, hack, hlog, -⟩ | ⟨hraised, hatt, herr⟩
  case inl =>
    have hn : (readSensor r (opened s)).2.status.attempts.toNat = j := by
      rw [hatt, attempt_toNat (hjmax.trans hmax)]
    rw [complete_readRegister_of_ok hok]
    exact ⟨hframe none, hp, hd, hx, hacc.log, .inl ⟨rfl, hn.symm ▸ hj, hn.symm ▸ hjmax, hack, l, hlog⟩⟩
  case inr =>
    have hn : (readSensor r (opened s)).2.status.attempts.toNat = s.cfg.retryLimit := by
      rw [hatt]
      exact attempt_toNat hmax
    rw [complete_readRegister_of_raised hraised]
    exact ⟨hframe (some .accessExhausted), hp, hd, hx, hacc.log, .inr ⟨rfl, hdata, hn, herr⟩⟩

end Sys2Proof.Machine
end

section
/-! PROOFS. LOAD_CAL's legality checks, and what keeps a loaded calibration store (42_calibration.md R165). -/

namespace Sys2Proof.Machine

section LoadCalChecks
/-! ### LOAD_CAL's check of `CAL_VALID` -/

variable {s : State}

theorem loadStore_of_loaded (h : s.status.calValid = true) : loadStore s = raise .calLocked s := if_pos h

theorem loadStore_of_unloaded (h : s.status.calValid = false) : loadStore s = loadCoefficients s :=
  if_neg (by simp [h])

/-- From Idle a loaded store is locked, and the check raises before any effect. -/
theorem exec_loadCal_of_loaded (hp : s.status.phase = .idle) (hv : s.status.calValid = true) :
    exec .loadCal s = .next (failedCheck .calLocked s) := by
  rw [exec_loadCal, complete_whenIdle_of_idle _ hp]
  exact congrArg _ (complete_of_raise (loadStore_of_loaded (s := opened s) hv))

end LoadCalChecks

section TransportFrames
/-! ### The frames of the procedures, however they end -/

theorem startProc_frame (a : Addr7) (d : Dir) (s : State) : OnlyTransport s (startProc a d s).2 := by
  rcases startProc_spec a d s with ⟨-, -, h⟩ | ⟨-, hran, -⟩
  · rw [h]; exact .refl s
  · exact hran.frame

theorem writeByteProc_frame (b : Byte) (s : State) : OnlyTransport s (writeByteProc b s).2 := by
  rcases writeByteProc_spec b s with ⟨-, h⟩ | ⟨-, hran, -⟩
  · rw [h]; exact .refl s
  · exact hran.frame

theorem readByteProc_frame (k : Bool) (s : State) : OnlyTransport s (readByteProc k s).2 := by
  rcases readByteProc_spec k s with ⟨-, h⟩ | ⟨-, hran, -⟩
  · rw [h]; exact .refl s
  · exact hran.frame

theorem stopProc_frame (s : State) : OnlyTransport s (stopProc s).2 := by
  rcases stopProc_spec s with ⟨-, h⟩ | ⟨-, hran, -⟩
  · rw [h]; exact .refl s
  · exact hran.frame

theorem recoverProc_frame (s : State) : OnlyTransport s (recoverProc s).2 := by
  rcases recoverProc_spec s with ⟨-, h⟩ | ⟨-, hran, -⟩
  · rw [h]; exact .refl s
  · exact hran.frame

theorem regAccess_writeOnce_frame (r x : Byte) {s : State} (hs : s.status.phase = .idle) :
    OnlyTransport s (regAccess (writeOnce r x) s).2 :=
  (regAccessFrom_spec (writeOnce_isAttempt s.cfg s.slaveAddr r x) _ _ s hs rfl rfl).1.frame

end TransportFrames

section CalibrationStore
/-! ### What keeps the calibration store -/

/-- The calibration store: `CAL_VALID` and the three coefficients (10_state.md R32, R38). -/
def calStore (s : State) : Bool × BitVec 16 × BitVec 16 × BitVec 8 :=
  (s.status.calValid, s.calT1, s.calT2, s.calT3)

theorem calStore_eq_iff {s t : State} :
    calStore t = calStore s ↔
      t.status.calValid = s.status.calValid ∧ t.calT1 = s.calT1 ∧ t.calT2 = s.calT2 ∧ t.calT3 = s.calT3 := by
  simp [calStore]

/-- The transport does not reach the store. -/
theorem calStore_of_onlyTransport {s t : State} (h : OnlyTransport s t) : calStore t = calStore s :=
  calStore_eq_iff.mpr ⟨h.calValid, h.calT1, h.calT2, h.calT3⟩

/-- Completion does not reach the store: it is what the body leaves. -/
theorem complete_calStore {α : Type} {body : State → Run α} {s : State}
    (h : calStore (body (opened s)).2 = calStore (opened s)) :
    calStore (complete body s) = calStore s := h

/-- For a composite only its body from Idle matters (41_register_access.md R145). -/
theorem complete_whenIdle_calStore {α : Type} {body : State → Run α} {s : State}
    (h : (opened s).status.phase = .idle → calStore (body (opened s)).2 = calStore (opened s)) :
    calStore (complete (whenIdle body) s) = calStore s := by
  by_cases hp : s.status.phase = .idle
  · rw [complete_whenIdle_of_idle _ hp]; exact complete_calStore (h hp)
  · rw [complete_whenIdle_of_not_idle _ hp]; rfl

/-- The commit of `DATA` after a read leaves the store to the read. -/
theorem andThen_setData_calStore (r : Run Byte) :
    calStore (andThen r fun v t => (.ok (), setData v t)).2 = calStore r.2 := by
  rcases andThen_cases r (fun v t => ((.ok (), setData v t) : Run Unit)) with ⟨v, -, h⟩ | ⟨f, -, h⟩ <;> rw [h]
  rfl

theorem readRegister_calStore (r : Byte) {s : State} (hs : s.status.phase = .idle) :
    calStore (readRegister r s).2 = calStore s :=
  (andThen_setData_calStore _).trans (calStore_of_onlyTransport (readSensor_accessed r s hs).frame)

theorem receiveByte_calStore (k : Bool) (s : State) : calStore (receiveByte k s).2 = calStore s :=
  (andThen_setData_calStore _).trans (calStore_of_onlyTransport (readByteProc_frame k s))

theorem readRawSample_calStore {s : State} (hs : s.status.phase = .idle) :
    calStore (readRawSample s).2 = calStore s := by
  have hreads := calStore_of_onlyTransport (sensorReads_accessed (rawRegs s.cfg) s hs).frame
  rcases readRawSample_eq s with ⟨-, h⟩ | ⟨_, _, _, -, h⟩ <;> rw [h] <;> exact hreads

theorem calcTempProc_calStore (s : State) : calStore (calcTempProc s).2 = calStore s := by
  unfold calcTempProc
  split <;> rfl

theorem loadStore_calStore_of_loaded {s : State} (h : s.status.calValid = true) :
    calStore (loadStore s).2 = calStore s := by
  rw [loadStore_of_loaded h]
  rfl

/-- No command changes a loaded store: LOAD_CAL is locked out of it, and no other command writes it. -/
theorem exec_calStore {i : Instr} {s t : State} (hv : s.status.calValid = true) (h : exec i s = .next t) :
    calStore t = calStore s := by
  cases i <;> cases h
  case start a d => exact complete_calStore (calStore_of_onlyTransport (startProc_frame a d _))
  case writeByte b => exact complete_calStore (calStore_of_onlyTransport (writeByteProc_frame b _))
  case readByte k => exact complete_calStore (receiveByte_calStore k _)
  case stop => exact complete_calStore (calStore_of_onlyTransport (stopProc_frame _))
  case recover => exact complete_calStore (calStore_of_onlyTransport (recoverProc_frame _))
  case readReg r => exact complete_whenIdle_calStore (readRegister_calStore r)
  case writeReg r x =>
    exact complete_whenIdle_calStore fun hp => calStore_of_onlyTransport (regAccess_writeOnce_frame r x hp)
  case loadCal => exact complete_whenIdle_calStore fun _ => loadStore_calStore_of_loaded hv
  case readRaw => exact complete_whenIdle_calStore readRawSample_calStore
  case calcTemp => exact complete_calStore (calcTempProc_calStore _)

/-! ### The moves of the agents -/

theorem seqTurn_calStore {s t : State} (hv : s.status.calValid = true) (h : seqTurn s = .next t) :
    calStore t = calStore s := by
  rcases seqTurn_cases h with ⟨-, rfl⟩ | ⟨-, ⟨i, -, hexec⟩ | ⟨-, rfl⟩⟩
  · rfl
  · exact exec_calStore hv hexec
  · rfl

theorem windowRead_calStore (off : Nat) (s : State) : calStore (windowRead off s) = calStore s := by
  rcases windowRead_cases off s with ⟨v, h⟩ | ⟨-, -, v, h⟩ <;> rw [h] <;> rfl

/-- The window maps the store read-only (20_memory.md R61). -/
theorem windowWrite_calStore (off : Nat) (v : Word) (s : State) : calStore (windowWrite off v s) = calStore s := by
  rcases windowWrite_cases off v s with h | ⟨-, h⟩ | ⟨-, -, h⟩ | ⟨-, -, h⟩ | ⟨-, -, h⟩ <;> rw [h] <;> rfl

theorem envStep_calStore (b : BusState) (s : State) : calStore (envStep b s) = calStore s := by
  unfold envStep
  split <;> rfl

/-- A step keeps a loaded store or is a block reset (R32, R38). -/
theorem step_calStore {s t : State} (hv : s.status.calValid = true) (h : step s = .next t) :
    calStore t = calStore s ∨ ∃ rest, s.agenda = .reset :: rest := by
  rcases step_cases h with ⟨u, rfl, -, hturn⟩ | ⟨a, rest, -, rfl, -⟩ | ⟨a, v, rest, -, rfl, -⟩ |
    ⟨b, rest, -, rfl⟩ | ⟨rest, ha, -⟩
  · exact .inl (seqTurn_calStore (s := { s with agenda := s.agenda.tail }) hv hturn)
  · exact .inl (windowRead_calStore _ _)
  · exact .inl (windowWrite_calStore _ _ _)
  · exact .inl (envStep_calStore b _)
  · exact .inr ⟨rest, ha⟩

end CalibrationStore

/-- Settles O31: the lock is LOAD_CAL's own check, and a step that does not keep the store is a block reset. -/
theorem secondLoadCalIsLocked : Obligations.SecondLoadCalIsLocked := by
  unfold Obligations.SecondLoadCalIsLocked
  refine ⟨fun s hp hv => exec_loadCal_of_loaded hp hv, fun s t hv hstep hcleared => ?_⟩
  refine (step_calStore hv hstep).resolve_left fun hkept => ?_
  obtain ⟨hvalid, -⟩ := calStore_eq_iff.mp hkept
  rw [hvalid, hv] at hcleared
  cases hcleared

end Sys2Proof.Machine
end

section
/-! PROOFS. LOAD_CAL commits all or nothing, whatever ENV answers (42_calibration.md R163, R164). -/

namespace Sys2Proof.Machine

section LoadCalOutcomes
/-! ### LOAD_CAL from Idle with an empty store -/

variable {s : State}

theorem exec_loadCal_of_unloaded (hp : s.status.phase = .idle) (hv : s.status.calValid = false) :
    exec .loadCal s = .next (complete loadCoefficients s) := by
  rw [exec_loadCal, complete_whenIdle_of_idle _ hp, complete_eq, complete_eq, loadStore_of_unloaded (s := opened s) hv]

/-- The completion is given by the five reads: a failed one leaves the store to the transport, which does not write it;
the bytes of five successful ones are committed. -/
theorem exec_loadCal_outcomes (hp : s.status.phase = .idle) (hv : s.status.calValid = false)
    {r : Option (List Byte) × State} (hr : sensorReads (calRegs s.cfg) (opened s) = r) :
    (r.1 = none ∧ exec .loadCal s = .next (setBusy false (setResult (some .calReadFailure) r.2))) ∨
      ∃ b0 b1 b2 b3 b4, r.1 = some [b0, b1, b2, b3, b4] ∧
        exec .loadCal s =
          .next (setBusy false (setResult none (commitCal (pairLE b0 b1) (pairLE b2 b3) b4 r.2))) := by
  rw [exec_loadCal_of_unloaded hp hv, complete_eq]
  subst hr
  rcases loadCoefficients_eq (opened s) with ⟨hnone, hload⟩ | ⟨b0, b1, b2, b3, b4, hsome, hload⟩ <;> rw [hload]
  · exact .inl ⟨hnone, rfl⟩
  · exact .inr ⟨b0, b1, b2, b3, b4, hsome, rfl⟩

/-- Where one of a command's reads is exhausted, the store and `DATA` are as they were, and `ATTEMPTS` and `LASTERR`
record the exhaustion (60_exceptions.md R200). -/
theorem sensorReads_opened_of_none {rs : List Byte} (hp : s.status.phase = .idle) (hcfg : s.cfg.Valid)
    (hnone : (sensorReads rs (opened s)).1 = none) :
    calStore (sensorReads rs (opened s)).2 = calStore s ∧ (sensorReads rs (opened s)).2.data = s.data ∧
      (sensorReads rs (opened s)).2.status.lastErr ≠ none ∧
      (sensorReads rs (opened s)).2.status.attempts.toNat = s.cfg.retryLimit := by
  obtain ⟨-, hpos, hmax⟩ := hcfg
  obtain ⟨hacc, -, -, hexhausted, -⟩ := sensorReads_spec rs (opened s) hp hpos
  obtain ⟨hatt, herr⟩ := hexhausted hnone
  refine ⟨calStore_of_onlyTransport hacc.frame, hacc.frame.data, herr, ?_⟩
  rw [hatt]
  exact attempt_toNat hmax

end LoadCalOutcomes

/-- Settles O30: the two outcomes of `exec_loadCal_outcomes`, and what an exhausted read leaves. -/
theorem loadCalCommitsAllOrNothing : Obligations.LoadCalCommitsAllOrNothing := by
  unfold Obligations.LoadCalCommitsAllOrNothing
  intro s hp hv hcfg
  refine ⟨sensorReads (calRegs s.cfg) (opened s), rfl, fun hnone => ?failed, fun vs hvs => ?loaded⟩
  case failed =>
    obtain ⟨hstore, hdata, herr, hatt⟩ := sensorReads_opened_of_none hp hcfg hnone
    obtain ⟨hvalid, ht1, ht2, ht3⟩ := calStore_eq_iff.mp hstore
    rcases exec_loadCal_outcomes hp hv rfl with ⟨-, hexec⟩ | ⟨_, _, _, _, _, hsome, -⟩
    · exact ⟨hexec, ht1, ht2, ht3, hvalid.trans hv, hdata, herr, hatt⟩
    · rw [hnone] at hsome
      cases hsome
  case loaded =>
    rcases exec_loadCal_outcomes hp hv rfl with ⟨hnone, -⟩ | ⟨b0, b1, b2, b3, b4, hsome, hexec⟩
    · rw [hnone] at hvs
      cases hvs
    · exact ⟨b0, b1, b2, b3, b4, Option.some.inj (hvs.symm.trans hsome), hexec⟩

end Sys2Proof.Machine
end

section
/-! PROOFS. Sequences of register accesses with an ENV that answers well at once, and the coefficients LOAD_CAL then
commits (42_calibration.md R161, R162). -/

namespace Sys2Proof.Machine

section ReadsThatGoWell
/-! ### Reads that go well one after another -/

variable {w k b : Nat} {v : Byte} {vs : List Byte} {e : Env}

/-- After the draws of one read the rest of ENV still answers well. -/
theorem WellBehaved.after_read (h : WellBehaved (w + 4) (k + 3) (b + 2) (v :: vs) e) :
    WellBehaved w k b vs (consumed 4 3 2 1 e) := by
  obtain ⟨⟨rs, hr⟩, ⟨as, ha⟩, ⟨bs, hb⟩, ⟨xs, hx⟩⟩ := h
  exact ⟨⟨rs, congrArg (List.drop 4) hr⟩, ⟨as, congrArg (List.drop 3) ha⟩, ⟨bs, congrArg (List.drop 2) hb⟩,
    ⟨xs, congrArg (List.drop 1) hx⟩⟩

/-- One register access in an ENV that answers well for it. -/
theorem readSensor_of_wellBehaved {s : State} (r : Byte) (hp : s.status.phase = .idle) (hP : 1 ≤ s.cfg.pollLimit)
    (hR : 1 ≤ s.cfg.retryLimit) (h : WellBehaved (w + 4) (k + 3) (b + 2) (v :: vs) s.env) :
    readSensor r s = (.ok v, afterRead r v (setAttempts 1 s)) := by
  obtain ⟨⟨rs, hr⟩, ⟨as, ha⟩, ⟨bs, hb⟩, ⟨xs, hx⟩⟩ := h
  exact readSensor_well hp hP hR hr ha hb hx

/-- What the reads of registers `rs` leave that go well with the bytes `vs`. -/
def afterReads (rs vs : List Byte) (s : State) : State :=
  { s with
    env := consumed (4 * vs.length) (3 * vs.length) (2 * vs.length) vs.length s.env
    busLog := s.busLog ++ (List.zipWith (readEvents s.slaveAddr) rs vs).flatten
    status := { s.status with
                busState := .idle, phase := .idle, dir := .write, rxEnd := false, ack := true, attempts := 1 } }

theorem afterReads_singleton (r v : Byte) (s : State) : afterReads [r] [v] s = afterRead r v (setAttempts 1 s) := by
  simp [afterReads, afterRead]

theorem consumed_consumed (w' k' b' x x' : Nat) :
    consumed w' k' b' x' (consumed w k b x e) = consumed (w + w') (k + k') (b + b') (x + x') e := by
  simp only [consumed, List.drop_drop]
  congr 1
  omega

theorem afterReads_cons (r v : Byte) (rs vs : List Byte) (s : State) :
    afterReads rs vs (afterRead r v (setAttempts 1 s)) = afterReads (r :: rs) (v :: vs) s := by
  simp [afterReads, afterRead, consumed_consumed, Nat.mul_add, Nat.add_comm]

/-- The reads of a nonempty list of registers, one attempt each. -/
theorem sensorReads_of_wellBehaved {r : Byte} {rs : List Byte} {s : State} (hlen : rs.length = vs.length)
    (hp : s.status.phase = .idle) (hP : 1 ≤ s.cfg.pollLimit) (hR : 1 ≤ s.cfg.retryLimit)
    (h : WellBehaved (4 * vs.length + 4) (3 * vs.length + 3) (2 * vs.length + 2) (v :: vs) s.env) :
    sensorReads (r :: rs) s = (some (v :: vs), afterReads (r :: rs) (v :: vs) s) := by
  induction rs generalizing r v vs s with
  | nil =>
    obtain rfl := List.length_eq_zero_iff.mp hlen.symm
    have hread := readSensor_of_wellBehaved r hp hP hR h
    rw [sensorReads_ok (congrArg Prod.fst hread), hread, sensorReads_nil, afterReads_singleton]
    rfl
  | cons r' rs ih =>
    obtain ⟨v', vs, rfl⟩ := List.exists_cons_of_length_eq_add_one hlen.symm
    have hread := readSensor_of_wellBehaved r hp hP hR h
    have hrest := ih (r := r') (s := afterRead r v (setAttempts 1 s)) (Nat.succ.inj hlen) rfl hP hR h.after_read
    rw [sensorReads_ok (congrArg Prod.fst hread), hread, hrest, afterReads_cons]
    rfl

end ReadsThatGoWell

section Coefficients
/-! ### The coefficients as numbers (R162) -/

theorem pairLE_toNat (lo hi : Byte) : (pairLE lo hi).toNat = hi.toNat * 256 + lo.toNat := toNat_append_eq hi lo

/-- A byte read as two's complement. -/
theorem byte_toInt (x : Byte) : x.toInt = (x.toNat : Int) - (if x.toNat < 128 then 0 else 256) := by
  rw [BitVec.toInt_eq_toNat_cond]
  split <;> split <;> omega

/-- The sign of a pair is that of its high byte. -/
theorem pairLE_toInt (lo hi : Byte) :
    (pairLE lo hi).toInt = (hi.toNat * 256 + lo.toNat : Int) - (if hi.toNat < 128 then 0 else 65536) := by
  have hlo := lo.isLt
  rw [BitVec.toInt_eq_toNat_cond, pairLE_toNat]
  split <;> split <;> omega

end Coefficients

/-- Settles O29: the five reads go well, so the completion is the commit of `exec_loadCal_outcomes`. -/
theorem loadCalCommitsCoefficients : Obligations.LoadCalCommitsCoefficients := by
  unfold Obligations.LoadCalCommitsCoefficients
  intro b0 b1 b2 b3 b4 s hp hv hP hR hwell
  have hreads : sensorReads (calRegs s.cfg) (opened s) =
      (some [b0, b1, b2, b3, b4], afterReads (calRegs s.cfg) [b0, b1, b2, b3, b4] (opened s)) :=
    sensorReads_of_wellBehaved rfl hp hP hR hwell
  rcases exec_loadCal_outcomes hp hv hreads with ⟨hnone, -⟩ | ⟨_, _, _, _, _, hsome, hexec⟩
  · cases hnone
  · cases hsome
    refine ⟨_, hexec, ?_, pairLE_toNat b0 b1, pairLE_toInt b2 b3, byte_toInt b4⟩
    simp [afterReads, calRegs, regPlus, opened, endedAccess, commitCal, setBusy, setResult, pairLE]

end Sys2Proof.Machine
end

section
/-! PROOFS. READ_RAW commits all or nothing, whatever ENV answers, and the assembly of the raw sample
(43_compensation.md R180, R183). -/

namespace Sys2Proof.Machine

section ReadRawOutcomes
/-! ### READ_RAW from Idle -/

variable {s : State}

/-- The completion is given by the three reads: a failed one leaves `RAW` to the transport, which does not write it; the
bytes of three successful ones are assembled. -/
theorem exec_readRaw_outcomes (hp : s.status.phase = .idle)
    {r : Option (List Byte) × State} (hr : sensorReads (rawRegs s.cfg) (opened s) = r) :
    (r.1 = none ∧ exec .readRaw s = .next (setBusy false (setResult (some .accessExhausted) r.2))) ∨
      ∃ m l x, r.1 = some [m, l, x] ∧
        exec .readRaw s = .next (setBusy false (setResult none (setRaw (rawAssemble m l x) r.2))) := by
  rw [exec_readRaw, complete_whenIdle_of_idle _ hp, complete_eq]
  subst hr
  rcases readRawSample_eq (opened s) with ⟨hnone, hread⟩ | ⟨m, l, x, hsome, hread⟩ <;> rw [hread]
  · exact .inl ⟨hnone, rfl⟩
  · exact .inr ⟨m, l, x, hsome, rfl⟩

end ReadRawOutcomes

/-- Settles O33: the two outcomes of `exec_readRaw_outcomes`, and what an exhausted read leaves. -/
theorem readRawCommitsAllOrNothing : Obligations.ReadRawCommitsAllOrNothing := by
  unfold Obligations.ReadRawCommitsAllOrNothing
  intro s hp hcfg
  refine ⟨sensorReads (rawRegs s.cfg) (opened s), rfl, fun hnone => ?failed, fun vs hvs => ?read⟩
  case failed =>
    have hraw : (sensorReads (rawRegs s.cfg) (opened s)).2.raw = s.raw :=
      (sensorReads_accessed (rawRegs s.cfg) (opened s) hp).frame.raw
    obtain ⟨-, hdata, herr, hatt⟩ := sensorReads_opened_of_none hp hcfg hnone
    rcases exec_readRaw_outcomes hp rfl with ⟨-, hexec⟩ | ⟨_, _, _, hsome, -⟩
    · exact ⟨hexec, hraw, hdata, herr, hatt⟩
    · rw [hnone] at hsome
      cases hsome
  case read =>
    rcases exec_readRaw_outcomes hp rfl with ⟨hnone, -⟩ | ⟨m, l, x, hsome, hexec⟩
    · rw [hnone] at hvs
      cases hvs
    · exact ⟨m, l, x, Option.some.inj (hvs.symm.trans hsome), hexec⟩

/-- Settles O35: each `++` of the assembly shifts what is above it and ors in what is below, and the high nibble of a
byte is the byte shifted right by 4. -/
theorem rawSampleAssembly : Obligations.RawSampleAssembly := by
  unfold Obligations.RawSampleAssembly
  intro msb lsb xlsb
  have hnibble : (xlsb.extractLsb' 4 4).toNat = xlsb.toNat >>> 4 := by
    rw [BitVec.extractLsb'_toNat, Nat.shiftRight_eq_div_pow]
    exact Nat.mod_eq_of_lt (by omega)
  calc (rawAssemble msb lsb xlsb).toNat
      = (msb.toNat <<< 8 ||| lsb.toNat) <<< 4 ||| xlsb.toNat >>> 4 := by
        rw [rawAssemble, BitVec.toNat_append, BitVec.toNat_append, hnibble]
    _ = msb.toNat <<< 12 ||| lsb.toNat <<< 4 ||| xlsb.toNat >>> 4 := by
        rw [Nat.shiftLeft_or_distrib, ← Nat.shiftLeft_add]

end Sys2Proof.Machine
end

section
/-! PROOFS. CALC_TEMP: its two outcomes, the formula by floor division, and its purity (43_compensation.md R184 to
R189). -/

namespace Sys2Proof.Machine

section CalcTempOutcomes
/-! ### CALC_TEMP's check of `CAL_VALID` and its effect -/

variable {s : State}

theorem exec_calcTemp (s : State) : exec .calcTemp s = .next (complete calcTempProc s) := rfl

/-- What CALC_TEMP writes before its completion (R189). -/
def compensated (s : State) : State :=
  { s with temp := tempLatch (compensateRegs s.raw s.calT1 s.calT2 s.calT3)
           status := { s.status with
                       tempOvf := tempOverflows (compensateRegs s.raw s.calT1 s.calT2 s.calT3) } }

theorem calcTempProc_of_uncalibrated (hv : s.status.calValid = false) : calcTempProc s = raise .notCalibrated s :=
  if_neg (by simp [hv])

theorem calcTempProc_of_calibrated (hv : s.status.calValid = true) : calcTempProc s = (.ok (), compensated s) :=
  if_pos hv

/-- Without a calibration the check raises before any effect (R188). -/
theorem exec_calcTemp_of_uncalibrated (hv : s.status.calValid = false) :
    exec .calcTemp s = .next (failedCheck .notCalibrated s) := by
  rw [exec_calcTemp, complete_of_raise (calcTempProc_of_uncalibrated (s := opened s) hv)]

theorem exec_calcTemp_of_calibrated (hv : s.status.calValid = true) :
    exec .calcTemp s = .next (endedOk (compensated s)) := by
  have hbody : calcTempProc (opened s) = (.ok (), opened (compensated s)) :=
    calcTempProc_of_calibrated (s := opened s) hv
  rw [exec_calcTemp, complete_of_ok hbody]

end CalcTempOutcomes

section Formula
/-! ### The formula's shifts as floor division (R185) -/

theorem shr_eq_fdiv (a : Int) (n : Nat) : shr a n = Int.fdiv a (2 ^ n) :=
  (Int.fdiv_eq_ediv_of_nonneg a (by positivity)).symm

theorem compVar1_eq_fdiv (raw t1 : Int) : compVar1 raw t1 = Int.fdiv raw 8 - t1 * 2 := by
  rw [compVar1, shr_eq_fdiv, shl]
  norm_num

theorem compVar2_eq_fdiv (var1 t2 : Int) : compVar2 var1 t2 = Int.fdiv (var1 * t2) 2048 := by
  rw [compVar2, shr_eq_fdiv]
  norm_num

theorem compSquare_eq_fdiv (var1 : Int) :
    compSquare var1 = Int.fdiv (Int.fdiv var1 2 * Int.fdiv var1 2) 4096 := by
  rw [compSquare, shr_eq_fdiv, shr_eq_fdiv]
  norm_num

theorem compVar3_eq_fdiv (var1 t3 : Int) : compVar3 var1 t3 = Int.fdiv (compSquare var1 * (t3 * 16)) 16384 := by
  rw [compVar3, shr_eq_fdiv, shl]
  norm_num

theorem compensate_eq_fdiv (raw t1 t2 t3 : Int) :
    compensate raw t1 t2 t3 =
      Int.fdiv ((compVar2 (compVar1 raw t1) t2 + compVar3 (compVar1 raw t1) t3) * 5 + 128) 256 := by
  rw [compensate, compTFine, shr_eq_fdiv]
  norm_num

theorem tempOverflows_eq_decide (t : Int) : tempOverflows t = decide (t < -32768 ∨ t > 32767) :=
  (Bool.decide_or _ _).symm

end Formula

/-- Settles O37: the two outcomes of CALC_TEMP's check, with each shift of R184 a floor division by a power of 2. -/
theorem calcTempComputesFormula : Obligations.CalcTempComputesFormula := by
  unfold Obligations.CalcTempComputesFormula
  refine fun s => ⟨rfl, exec_calcTemp_of_uncalibrated, fun hv => ?_⟩
  refine ⟨_, _, _, _, _, compVar1_eq_fdiv _ _, compVar2_eq_fdiv _ _, compSquare_eq_fdiv _, compVar3_eq_fdiv _ _,
    compensate_eq_fdiv _ _ _ _, ?_⟩
  rw [exec_calcTemp_of_calibrated hv, compensated, tempOverflows_eq_decide, tempLatch, compensateRegs]

section Purity
/-! ### What the compensation depends on (R187) -/

variable {s t : State}

theorem compensated_congr (hraw : s.raw = t.raw) (h1 : s.calT1 = t.calT1) (h2 : s.calT2 = t.calT2)
    (h3 : s.calT3 = t.calT3) :
    (compensated s).temp = (compensated t).temp ∧
      (compensated s).status.tempOvf = (compensated t).status.tempOvf := by
  simp only [compensated, hraw, h1, h2, h3, and_self]

/-- CALC_TEMP writes none of its arguments, so it computes the same again. -/
theorem compensated_compensated (s : State) : compensated (compensated s) = compensated s := by
  simp only [compensated]

theorem endedOk_endedOk (s : State) : endedOk (endedOk s) = endedOk s := by
  simp only [endedOk]

/-- Completion writes none of the arguments either, and they are all that CALC_TEMP reads. -/
theorem compensated_endedOk (s : State) : compensated (endedOk s) = endedOk (compensated s) := by
  simp only [compensated, endedOk]

end Purity

/-- Settles O41: a CALC_TEMP that passes its check leaves `endedOk (compensated s)`, in which `ENV` and `BUSLOG` are as
they were. -/
theorem compensationIsPure : Obligations.CompensationIsPure := by
  unfold Obligations.CompensationIsPure
  intro s t s' t' hs ht hv
  rw [exec_calcTemp_of_calibrated hv] at hs
  cases hs
  refine ⟨fun hvt hraw h1 h2 h3 => ?same, ?again, rfl, rfl⟩
  case same =>
    rw [exec_calcTemp_of_calibrated hvt] at ht
    cases ht
    exact compensated_congr hraw h1 h2 h3
  case again =>
    have hv' : (endedOk (compensated s)).status.calValid = true := hv
    rw [exec_calcTemp_of_calibrated hv', compensated_endedOk, compensated_compensated, endedOk_endedOk]

end Sys2Proof.Machine
end

section
/-! PROOFS. The encoder and the decoder are inverse (30_encoding.md R80 to R89), and the opcode table's first matching
row agrees with the decoder (R93). -/

namespace Sys2Proof

section DecodeEncode
/-! ### Decoding an encoded command -/

/-- START's address is read back from bits [7:1] (R83). -/
theorem addressByte_address (a : Addr7) (d : Dir) : (addressByte a d).extractLsb' 1 7 = a :=
  BitVec.extractLsb'_append_eq_left

/-- START's direction is read back from bit [0] (R83). -/
theorem addressByte_dir (a : Addr7) (d : Dir) : Dir.ofBit ((addressByte a d).getLsbD 0) = d := by
  rw [addressByte, BitVec.getLsbD_append]
  cases d <;> rfl

theorem decode_commandWord_start (x : Byte) :
    decode (commandWord 0x1 0 x) = .ok (.start (x.extractLsb' 1 7) (Dir.ofBit (x.getLsbD 0))) := by
  rw [decode, extract_7_1_of_arg, bit_0_of_arg]
  simp

theorem decode_commandWord_readByte (x : Byte) (h : x.extractLsb' 1 7 = 0) :
    decode (commandWord 0x3 0 x) = .ok (.readByte (x.getLsbD 0)) := by
  rw [decode, extract_7_1_of_arg, bit_0_of_arg]
  simp [h]

end DecodeEncode

/-- Settles O1: the fields of the encoded word are the operands, each read back by the decoder's arm of the opcode. -/
theorem decodeOfEncode : Obligations.DecodeOfEncode := by
  unfold Obligations.DecodeOfEncode
  intro i
  cases i
  case start a d =>
    calc decode (encode (.start a d)) = _ := decode_commandWord_start (addressByte a d)
      _ = .ok (.start a d) := by rw [addressByte_address, addressByte_dir]
  case readByte k => cases k <;> exact decode_commandWord_readByte _ (by decide)
  case writeByte | readReg | writeReg => simp [decode, encode, Instr.opcode]
  case stop | recover | loadCal | readRaw | calcTemp => decide

section EncodeDecode
/-! ### Encoding a decoded command -/

variable {w : Word}

/-- A word with `RSV` = 0 is the command word of its fields. -/
theorem commandWord_eq_of_fields {o : BitVec 4} {r a : Byte} (hrsv : rsvField w = 0)
    (hop : (opField w).toNat = o.toNat) (hreg : regField w = r) (harg : argField w = a) : commandWord o r a = w := by
  rw [← BitVec.eq_of_toNat_eq hop, ← hreg, ← harg]
  exact commandWord_of_fields w hrsv

/-- The direction bit of a decoded direction is the bit it was decoded from (R83). -/
theorem bit_ofBit (b : Bool) : (Dir.ofBit b).bit = BitVec.ofBool b := by
  cases b <;> rfl

/-- A byte's bits [7:1] and its bit [0]. -/
theorem extract_append_extract (x : Byte) : x.extractLsb' 1 7 ++ x.extractLsb' 0 1 = x := by
  rw [BitVec.extractLsb'_append_extractLsb'_eq_extractLsb' (Nat.zero_add 1).symm]
  exact BitVec.extractLsb'_eq_self

/-- A byte is the address byte of its bits [7:1] and [0]. -/
theorem addressByte_of_bits (x : Byte) : addressByte (x.extractLsb' 1 7) (Dir.ofBit (x.getLsbD 0)) = x := by
  have hbit : BitVec.ofBool (x.getLsbD 0) = x.extractLsb' 0 1 := by
    ext j hj
    obtain rfl : j = 0 := by omega
    simp
  rw [addressByte, bit_ofBit, hbit, extract_append_extract]

/-- A byte whose bits [7:1] are 0 is READ_BYTE's argument for its bit [0] (R84). -/
theorem ackArg_of_bits {x : Byte} (h : x.extractLsb' 1 7 = 0) : (if x.getLsbD 0 then (1 : Byte) else 0) = x := by
  have hx := addressByte_of_bits x
  rw [h] at hx
  cases hb : x.getLsbD 0 <;> rw [hb] at hx <;> exact hx

/-- A guard that let the word through. -/
theorem of_guard_ok {p : Prop} [Decidable p] {e : IllegalWord} {r : Except IllegalWord Instr} {i : Instr}
    (h : (if p then .error e else r) = .ok i) : ¬p ∧ r = .ok i := by
  split at h
  · cases h
  · exact ⟨‹_›, h⟩

theorem of_decodePlain_ok {i j : Instr} (h : decodePlain w j = .ok i) :
    regField w = 0 ∧ argField w = 0 ∧ i = j := by
  obtain ⟨hreg, h⟩ := of_guard_ok h
  obtain ⟨harg, h⟩ := of_guard_ok h
  cases h
  exact ⟨not_not.mp hreg, not_not.mp harg, rfl⟩

end EncodeDecode

/-- Settles O2: in each arm of the decoder the guards passed give the fields that are no operands, and a word
with `RSV` = 0 is its fields. -/
theorem encodeOfDecode : Obligations.EncodeOfDecode := by
  unfold Obligations.EncodeOfDecode
  intro w i h
  obtain ⟨hrsv, h⟩ := of_guard_ok h
  rw [not_not] at hrsv
  split at h
  case h_1 hop =>
    obtain ⟨hreg, h⟩ := of_guard_ok h
    cases h
    refine commandWord_eq_of_fields hrsv hop (not_not.mp hreg) ?_
    rw [extract_7_1_of_arg, bit_0_of_arg, addressByte_of_bits]
  case h_2 hop =>
    obtain ⟨hreg, h⟩ := of_guard_ok h
    cases h
    exact commandWord_eq_of_fields hrsv hop (not_not.mp hreg) rfl
  case h_3 hop =>
    obtain ⟨hreg, h⟩ := of_guard_ok h
    obtain ⟨harg, h⟩ := of_guard_ok h
    cases h
    refine commandWord_eq_of_fields hrsv hop (not_not.mp hreg) ?_
    rw [not_not, extract_7_1_of_arg] at harg
    rw [bit_0_of_arg, ackArg_of_bits harg]
  case h_6 hop =>
    obtain ⟨harg, h⟩ := of_guard_ok h
    cases h
    exact commandWord_eq_of_fields hrsv hop rfl (not_not.mp harg)
  case h_7 hop =>
    cases h
    exact commandWord_eq_of_fields hrsv hop rfl rfl
  case h_4 hop | h_5 hop | h_8 hop | h_9 hop | h_10 hop =>
    obtain ⟨hreg, harg, rfl⟩ := of_decodePlain_ok h
    exact commandWord_eq_of_fields hrsv hop hreg harg
  case h_11 => cases h

section OpcodeTable
/-! ### The rows of the opcode table (R93) -/

/-- A word is determined by its four fields. -/
theorem eq_iff_fields (w v : Word) :
    w = v ↔ opField w = opField v ∧ rsvField w = rsvField v ∧ regField w = regField v ∧ argField w = argField v := by
  refine ⟨fun h => h ▸ ⟨rfl, rfl, rfl, rfl⟩, fun ⟨hop, hrsv, hreg, harg⟩ => BitVec.eq_of_toNat_eq ?_⟩
  replace hop := congrArg BitVec.toNat hop
  replace hrsv := congrArg BitVec.toNat hrsv
  replace hreg := congrArg BitVec.toNat hreg
  replace harg := congrArg BitVec.toNat harg
  rw [opField_toNat, opField_toNat] at hop
  rw [rsvField_toNat, rsvField_toNat] at hrsv
  rw [regField_toNat, regField_toNat] at hreg
  rw [argField_toNat, argField_toNat] at harg
  omega

/-- A row whose mask covers `OP` and `RSV` matches field by field. -/
theorem matchesWord_iff_fields {r : TableRow} (hop : opField r.mask = 0xF) (hrsv : rsvField r.mask = 0xFFF) (w : Word) :
    r.matchesWord w = true ↔
      opField w = opField r.value ∧ rsvField w = rsvField r.value ∧
        regField w &&& regField r.mask = regField r.value ∧ argField w &&& argField r.mask = argField r.value := by
  have hopAnd : opField (w &&& r.mask) = opField w := by
    rw [opField, BitVec.extractLsb'_and, ← opField, ← opField, hop]
    exact BitVec.and_allOnes
  have hrsvAnd : rsvField (w &&& r.mask) = rsvField w := by
    rw [rsvField, BitVec.extractLsb'_and, ← rsvField, ← rsvField, hrsv]
    exact BitVec.and_allOnes
  have hregAnd : regField (w &&& r.mask) = regField w &&& regField r.mask := BitVec.extractLsb'_and
  have hargAnd : argField (w &&& r.mask) = argField w &&& argField r.mask := BitVec.extractLsb'_and
  rw [TableRow.matchesWord, decide_eq_true_iff, eq_iff_fields, hopAnd, hrsvAnd, hregAnd, hargAnd]

theorem opcodeTable_masks : ∀ r ∈ opcodeTable, opField r.mask = 0xF ∧ rsvField r.mask = 0xFFF := by
  decide

/-- READ_BYTE's mask of `ARG` leaves bits [7:1] (R84). -/
theorem and_ackMask_eq_zero_iff (x : Byte) : x &&& 0xFE = 0 ↔ x.extractLsb' 1 7 = 0 := by
  have hand : x &&& 0xFE = x.extractLsb' 1 7 ++ 0#1 := by
    calc x &&& 0xFE = (x.extractLsb' 1 7 ++ x.extractLsb' 0 1) &&& (BitVec.allOnes 7 ++ 0#1) := by
          rw [extract_append_extract]; rfl
      _ = x.extractLsb' 1 7 ++ 0#1 := by rw [BitVec.and_append, BitVec.and_allOnes, BitVec.and_zero]
  rw [hand]
  refine ⟨fun h => ?_, fun h => by rw [h]; rfl⟩
  have hleft := congrArg (BitVec.extractLsb' 1 7) h
  rwa [BitVec.extractLsb'_append_eq_left] at hleft

/-- A row matches only the command words of its own command: each field it matches is the command's, or an operand. -/
theorem exists_encode_of_matchesWord {r : TableRow} {w : Word} (hr : r ∈ opcodeTable) (h : r.matchesWord w = true) :
    ∃ i, encode i = w ∧ i.mnemonic = r.mnemonic := by
  obtain ⟨hopMask, hrsvMask⟩ := opcodeTable_masks r hr
  obtain ⟨hop, hrsv, hreg, harg⟩ := (matchesWord_iff_fields hopMask hrsvMask w).mp h
  replace hop := congrArg BitVec.toNat hop
  have hcovered (x : Byte) : x &&& 0xFF = x := BitVec.and_allOnes
  have hplain {o : BitVec 4} (hrsv : rsvField w = 0) (hop : (opField w).toNat = o.toNat)
      (hreg : regField w &&& 0xFF = 0) (harg : argField w &&& 0xFF = 0) : commandWord o 0 0 = w :=
    commandWord_eq_of_fields hrsv hop ((hcovered _).symm.trans hreg) ((hcovered _).symm.trans harg)
  simp only [opcodeTable, List.mem_cons, List.not_mem_nil, or_false] at hr
  rcases hr with rfl | rfl | rfl | rfl | rfl | rfl | rfl | rfl | rfl | rfl
  · refine ⟨.start ((argField w).extractLsb' 1 7) (Dir.ofBit ((argField w).getLsbD 0)), ?_, rfl⟩
    exact commandWord_eq_of_fields hrsv hop ((hcovered _).symm.trans hreg) (addressByte_of_bits _).symm
  · exact ⟨.writeByte (argField w), commandWord_eq_of_fields hrsv hop ((hcovered _).symm.trans hreg) rfl, rfl⟩
  · refine ⟨.readByte ((argField w).getLsbD 0), ?_, rfl⟩
    exact commandWord_eq_of_fields hrsv hop ((hcovered _).symm.trans hreg)
      (ackArg_of_bits ((and_ackMask_eq_zero_iff _).mp harg)).symm
  · exact ⟨.stop, hplain hrsv hop hreg harg, rfl⟩
  · exact ⟨.recover, hplain hrsv hop hreg harg, rfl⟩
  · exact ⟨.readReg (regField w), commandWord_eq_of_fields hrsv hop rfl ((hcovered _).symm.trans harg), rfl⟩
  · exact ⟨.writeReg (regField w) (argField w), commandWord_eq_of_fields hrsv hop rfl rfl, rfl⟩
  · exact ⟨.loadCal, hplain hrsv hop hreg harg, rfl⟩
  · exact ⟨.readRaw, hplain hrsv hop hreg harg, rfl⟩
  · exact ⟨.calcTemp, hplain hrsv hop hreg harg, rfl⟩

theorem matchesWord_commandWord {r : TableRow} {o : BitVec 4} {reg arg : Byte} (hr : r ∈ opcodeTable)
    (hop : o = opField r.value) (hrsv : 0 = rsvField r.value) (hreg : reg &&& regField r.mask = regField r.value)
    (harg : arg &&& argField r.mask = argField r.value) : r.matchesWord (commandWord o reg arg) = true := by
  obtain ⟨hopMask, hrsvMask⟩ := opcodeTable_masks r hr
  rw [matchesWord_iff_fields hopMask hrsvMask, opField_commandWord, rsvField_commandWord, regField_commandWord,
    argField_commandWord]
  exact ⟨hop, hrsv, hreg, harg⟩

/-- Every command's word is matched by a row: the one at the place of its opcode. -/
theorem exists_matchesWord_encode (i : Instr) : ∃ r ∈ opcodeTable, r.matchesWord (encode i) = true := by
  suffices h : ∃ r, opcodeTable[i.opcode.toNat - 1]? = some r ∧ (r ∈ opcodeTable → r.matchesWord (encode i) = true) by
    obtain ⟨r, hr, hmatch⟩ := h
    have hmem := List.mem_of_getElem? hr
    exact ⟨r, hmem, hmatch hmem⟩
  cases i
  case start a d => exact ⟨_, rfl, fun hr => matchesWord_commandWord hr rfl rfl rfl BitVec.and_zero⟩
  case writeByte b => exact ⟨_, rfl, fun hr => matchesWord_commandWord hr rfl rfl rfl BitVec.and_zero⟩
  case readByte k => exact ⟨_, rfl, fun hr => matchesWord_commandWord hr rfl rfl rfl (by cases k <;> rfl)⟩
  case readReg r => exact ⟨_, rfl, fun hr => matchesWord_commandWord hr rfl rfl BitVec.and_zero rfl⟩
  case writeReg r x => exact ⟨_, rfl, fun hr => matchesWord_commandWord hr rfl rfl BitVec.and_zero BitVec.and_zero⟩
  case stop | recover | loadCal | readRaw | calcTemp =>
    exact ⟨_, rfl, fun hr => matchesWord_commandWord hr rfl rfl rfl rfl⟩

/-- The first matching row of a command's word is one of that command, since no word encodes two. -/
theorem tableMnemonic_encode (i : Instr) : tableMnemonic (encode i) = some i.mnemonic := by
  obtain ⟨r, hr, hmatch⟩ := exists_matchesWord_encode i
  have hsome : (opcodeTable.find? (·.matchesWord (encode i))).isSome := List.find?_isSome.mpr ⟨r, hr, hmatch⟩
  obtain ⟨r', hfind⟩ := Option.isSome_iff_exists.mp hsome
  have hfound : r'.matchesWord (encode i) = true :=
    List.find?_some (p := fun x : TableRow => x.matchesWord (encode i)) hfind
  obtain ⟨j, hj, hmnemonic⟩ := exists_encode_of_matchesWord (List.mem_of_find?_eq_some hfind) hfound
  have hij : (Except.ok j : Except IllegalWord Instr) = .ok i := by
    rw [← decodeOfEncode j, ← decodeOfEncode i, hj]
  rw [tableMnemonic, hfind, ← Except.ok.inj hij, hmnemonic]
  rfl

theorem tableMnemonic_of_refused {w : Word} (h : ∀ i, decode w ≠ .ok i) : tableMnemonic w = none := by
  rw [tableMnemonic, List.find?_eq_none.mpr, Option.map_none]
  intro r hr hmatch
  obtain ⟨i, rfl, -⟩ := exists_encode_of_matchesWord hr hmatch
  exact h i (decodeOfEncode i)

theorem tableMnemonic_eq (w : Word) : tableMnemonic w = (decode w).toOption.map Instr.mnemonic := by
  cases hd : decode w
  case error e => exact tableMnemonic_of_refused (by simp [hd])
  case ok i => rw [← encodeOfDecode w i hd, tableMnemonic_encode]; rfl

end OpcodeTable

section LegalWords
/-! ### `WellFormed` and the decoder -/

/-- R86's check and the decoder's guards agree line by line. -/
theorem wellFormed_iff_exists_decode (w : Word) : wellFormed w = true ↔ ∃ i, decode w = .ok i := by
  rw [exists_decode_ok_iff]
  have hlit (k : BitVec 4) : opField w = k ↔ (opField w).toNat = k.toNat := BitVec.toNat_inj.symm
  have hop : (1 ≤ (opField w).toNat ∧ (opField w).toNat ≤ 10) ↔
      (opField w).toNat ∈ [0x1, 0x2, 0x3, 0x4, 0x5, 0x6, 0x7, 0x8, 0x9, 0xA] := by
    simp only [List.mem_cons, List.not_mem_nil, or_false]
    omega
  rw [← hop]
  simp [wellFormed, opLegal, rsvLegal, regLegal, ackArgLegal, noArgLegal, hlit, and_assoc]

end LegalWords

/-- Settles O4: a row matches exactly the command words of its own command, and R86's check is the decoder's. -/
theorem firstTableRowAgreesWithDecode : Obligations.FirstTableRowAgreesWithDecode := by
  unfold Obligations.FirstTableRowAgreesWithDecode
  intro w
  refine ⟨tableMnemonic_eq w, ?_⟩
  rw [wellFormed_iff_exists_decode, tableMnemonic_eq]
  cases decode w <;> simp [Except.toOption]

/-- Settles O5: each worked word is computed as its command's encoding, and decoding gives the command back; the five
examples are computed. -/
theorem workedEncodings : Obligations.WorkedEncodings := by
  unfold Obligations.WorkedEncodings
  refine ⟨fun p hp => ?worked, fun w hw => ?illegal⟩
  case worked =>
    have hencode : encode p.1 = p.2 := by fin_cases hp <;> rfl
    exact ⟨hencode ▸ decodeOfEncode p.1, hencode⟩
  case illegal => fin_cases hw <;> exact ⟨rfl, rfl⟩

end Sys2Proof
end

section
/-! PROOFS. What a command can do, once for all ten: which state its procedure reaches, how it ends there, and what the
completion then commits (40_transport.md R105; 60_exceptions.md R200, R201). -/

namespace Sys2Proof.Machine

section Terms
/-! ### The terms -/

/-- The part of the invariant that the transport and the retry policy write (10_state.md R26, R29, R30, R34). -/
structure Settled (s : State) : Prop where
  phase : s.status.phase ≠ .addressing
  idle_clears : s.status.phase = .idle → s.status.dir = .write ∧ s.status.rxEnd = false
  rxEnd_in_read : s.status.rxEnd = true → s.status.dir = .read
  attempts : s.status.attempts.toNat ≤ s.cfg.retryLimit

/-- The transitions of `PHASE` over a completion (10_state.md R44). -/
def PhaseMove (i : Instr) (p q : Phase) : Prop :=
  q = p ∨
    ((∃ a d, i = .start a d) ∧ (p = .idle ∨ p = .dataPhase) ∧ (q = .dataPhase ∨ q = .error)) ∨
    (((∃ b, i = .writeByte b) ∨ ∃ k, i = .readByte k) ∧ p = .dataPhase ∧ q = .error) ∨
    (i = .stop ∧ p = .dataPhase ∧ (q = .idle ∨ q = .error)) ∨
    (i = .recover ∧ p = .error ∧ q = .idle)

/-- The commands that receive no acknowledge bit (R31). -/
def TakesNoAck (i : Instr) : Prop := (∃ k, i = .readByte k) ∨ i = .stop ∨ i = .recover ∨ i = .calcTemp

/-- What command `i`'s procedure may do from `s` to `t`, before it commits a result. -/
structure Reaches (i : Instr) (s t : State) : Prop where
  accessed : Accessed (drawBound s.cfg.pollLimit s.cfg.retryLimit i) s t
  settled : s.cfg.Valid → Settled s → Settled t
  phase : PhaseMove i s.status.phase t.status.phase
  ack : TakesNoAck i → t.status.ack = s.status.ack

/-- The results of a failed legality check of a decoded command (60_exceptions.md R201). -/
def IsCheckFailure (f : Failure) : Prop := f = .sequenceError ∨ f = .calLocked ∨ f = .notCalibrated

/-- The results of an exhausted register access (R200). -/
def IsExhaustion (f : Failure) : Prop := f = .accessExhausted ∨ f = .calReadFailure

/-- The registers a command that ends OK writes beyond the transport (10_state.md R20). -/
inductive Commits : Instr → State → State → Prop
  | nothing {i : Instr} {s : State} : Commits i s s
  | readByte {k : Bool} {s : State} (v : Byte) : Commits (.readByte k) s (setData v s)
  | readReg {r : Byte} {s : State} (v : Byte) : Commits (.readReg r) s (setData v s)
  | readRaw {s : State} (v : BitVec 20) : Commits .readRaw s (setRaw v s)
  | loadCal {s : State} (t1 t2 : BitVec 16) (t3 : BitVec 8) : Commits .loadCal s (commitCal t1 t2 t3 s)
  | calcTemp {s : State} : Commits .calcTemp s (compensated s)

/-- How command `i` ends that began in `s` and reached `u`: its result, and the state that `RESULT` and `BUSY` are then
written to. -/
inductive Ending (i : Instr) (s u : State) : Option Failure → State → Prop
  | refused {f : Failure} : IsCheckFailure f → u = s → Ending i s u (some f) u
  | busFailed {c : BusFailure} : u.status.phase = .error → u.status.lastErr = some c → Ending i s u (some (.bus c)) u
  | exhausted {f : Failure} : IsExhaustion f → u.status.phase = .idle →
      (s.cfg.Valid → u.status.attempts.toNat = s.cfg.retryLimit ∧ u.status.lastErr ≠ none) → Ending i s u (some f) u
  | ok {t : State} : Commits i u t → Ending i s u none t

/-- What is proved of each command's procedure `body` at `s`. -/
def EndsWell (i : Instr) (body : State → Run Unit) (s : State) : Prop :=
  ∃ u, Reaches i s u ∧ Ending i s u (body s).1.result (body s).2

end Terms

section Assembling
/-! ### How the terms are met -/

variable {i : Instr} {n : Nat} {s t : State}

theorem Reaches.refl (i : Instr) (s : State) : Reaches i s s where
  accessed := (Accessed.refl s).mono (Nat.zero_le _)
  settled := fun _ h => h
  phase := .inl rfl
  ack := fun _ => rfl

/-- A procedure that raises before any effect. -/
theorem endsWell_of_raise {body : State → Run Unit} {f : Failure} (hf : IsCheckFailure f)
    (h : body s = raise f s) : EndsWell i body s :=
  ⟨s, .refl i s, by rw [h]; exact .refused hf rfl⟩

/-- A procedure that ends with a bus failure, in Error. -/
theorem endsWell_of_endsFailed {body : State → Run Unit} (hreach : Reaches i s (body s).2)
    (h : EndsFailed (body s)) : EndsWell i body s := by
  obtain ⟨c, hraised, hphase, herr⟩ := h
  refine ⟨_, hreach, ?_⟩
  rw [hraised]
  exact .busFailed hphase herr

/-- A procedure that ends OK and commits nothing. -/
theorem endsWell_of_ok {body : State → Run Unit} (hreach : Reaches i s (body s).2) (h : (body s).1 = .ok ()) :
    EndsWell i body s := by
  refine ⟨_, hreach, ?_⟩
  rw [h]
  exact .ok .nothing

/-- The transport keeps `ATTEMPTS`, so it settles where `PHASE`, `DIR` and `RXEND` do. -/
theorem Settled.of_ran (hs : Settled s) (hran : Ran n s t) (hphase : t.status.phase ≠ .addressing)
    (hidle : t.status.phase = .idle → t.status.dir = .write ∧ t.status.rxEnd = false)
    (hread : t.status.rxEnd = true → t.status.dir = .read) : Settled t where
  phase := hphase
  idle_clears := hidle
  rxEnd_in_read := hread
  attempts := by rw [hran.attempts, hran.frame.cfg]; exact hs.attempts

theorem Settled.of_ran_idle (hs : Settled s) (hran : Ran n s t) (hp : t.status.phase = .idle)
    (hd : t.status.dir = .write) (hx : t.status.rxEnd = false) : Settled t :=
  hs.of_ran hran (by simp [hp]) (fun _ => ⟨hd, hx⟩) (by simp [hx])

theorem Settled.of_ran_not_idle (hs : Settled s) (hran : Ran n s t)
    (hp : t.status.phase = .dataPhase ∨ t.status.phase = .error)
    (hread : t.status.rxEnd = true → t.status.dir = .read) : Settled t := by
  refine hs.of_ran hran ?_ ?_ hread <;> rcases hp with hp | hp <;> simp [hp]

end Assembling

section Primitives
/-! ### The primitive commands -/

variable (s : State)

theorem startProc_endsWell (a : Addr7) (d : Dir) : EndsWell (.start a d) (startProc a d) s := by
  have hnoAck : ¬TakesNoAck (.start a d) := by simp [TakesNoAck]
  rcases startProc_spec a d s with ⟨-, -, h⟩ | ⟨hlegal, hran, -, hends⟩
  · exact endsWell_of_raise (.inl rfl) h
  rcases hends with ⟨hok, hp, -, hx, -⟩ | ⟨hfailed, hx⟩
  · refine endsWell_of_ok ⟨hran.accessed, fun _ hs => ?_, .inr (.inl ⟨⟨a, d, rfl⟩, hlegal, .inl hp⟩),
      (absurd · hnoAck)⟩ hok
    exact hs.of_ran_not_idle hran (.inl hp) (by simp [hx])
  · obtain ⟨c, -, hp, -⟩ := id hfailed
    refine endsWell_of_endsFailed ⟨hran.accessed, fun _ hs => ?_, .inr (.inl ⟨⟨a, d, rfl⟩, hlegal, .inr hp⟩),
      (absurd · hnoAck)⟩ hfailed
    refine hs.of_ran_not_idle hran (.inr hp) fun h => ?_
    obtain ⟨hx', hd⟩ := hx h
    rw [hd]
    exact hs.rxEnd_in_read hx'

theorem writeByteProc_endsWell (b : Byte) : EndsWell (.writeByte b) (writeByteProc b) s := by
  have hnoAck : ¬TakesNoAck (.writeByte b) := by simp [TakesNoAck]
  rcases writeByteProc_spec b s with ⟨-, h⟩ | ⟨⟨hp0, hd0⟩, hran, hd, hx, -, hends⟩
  · exact endsWell_of_raise (.inl rfl) h
  have hread (hs : Settled s) : (writeByteProc b s).2.status.rxEnd = true →
      (writeByteProc b s).2.status.dir = .read := by
    rw [hx, hd, ← hd0]
    exact hs.rxEnd_in_read
  rcases hends with ⟨hok, hp, -⟩ | hfailed
  · exact endsWell_of_ok ⟨hran.accessed, fun _ hs => hs.of_ran_not_idle hran (.inl hp) (hread hs),
      .inl (hp.trans hp0.symm), (absurd · hnoAck)⟩ hok
  · obtain ⟨c, -, hp, -⟩ := id hfailed
    exact endsWell_of_endsFailed ⟨hran.accessed, fun _ hs => hs.of_ran_not_idle hran (.inr hp) (hread hs),
      .inr (.inr (.inl ⟨.inl ⟨b, rfl⟩, hp0, hp⟩)), (absurd · hnoAck)⟩ hfailed

/-- READ_BYTE receives no acknowledge bit, however it ends. -/
theorem readByteProc_ack (k : Bool) : (readByteProc k s).2.status.ack = s.status.ack := by
  unfold readByteProc
  split
  · dsimp only
    split
    · cases k <;> rfl
    · rfl
  · rfl

theorem receiveByte_endsWell (k : Bool) : EndsWell (.readByte k) (receiveByte k) s := by
  rcases readByteProc_spec k s with ⟨hillegal, -⟩ | ⟨⟨hp0, -⟩, hran, hd, hends⟩
  · exact endsWell_of_raise (.inl rfl) (receiveByte_of_illegal hillegal)
  have hack : TakesNoAck (.readByte k) → (readByteProc k s).2.status.ack = s.status.ack := fun _ =>
    readByteProc_ack s k
  rcases hends with ⟨v, hok, hp, -⟩ | ⟨⟨c, hraised, hp, herr⟩, -⟩
  · refine ⟨_, ⟨hran.accessed, fun _ hs => hs.of_ran_not_idle hran (.inl hp) fun _ => hd,
      .inl (hp.trans hp0.symm), hack⟩, ?_⟩
    simp only [receiveByte, andThen, hok]
    exact .ok (.readByte v)
  · refine ⟨_, ⟨hran.accessed, fun _ hs => hs.of_ran_not_idle hran (.inr hp) fun _ => hd,
      .inr (.inr (.inl ⟨.inr ⟨k, rfl⟩, hp0, hp⟩)), hack⟩, ?_⟩
    simp only [receiveByte, andThen, hraised]
    exact .busFailed hp herr

/-- STOP receives no acknowledge bit, however it ends. -/
theorem stopProc_ack : (stopProc s).2.status.ack = s.status.ack := by
  unfold stopProc
  split
  · exact (stopPoll_spec _ _).2.2.1
  · rfl

theorem stopProc_endsWell : EndsWell .stop stopProc s := by
  rcases stopProc_spec s with ⟨-, h⟩ | ⟨hp0, hran, -, hends⟩
  · exact endsWell_of_raise (.inl rfl) h
  rcases hends with ⟨hok, hp, hd, hx, -⟩ | ⟨hfailed, -, hd, hx⟩
  · exact endsWell_of_ok ⟨hran.accessed, fun _ hs => hs.of_ran_idle hran hp hd hx,
      .inr (.inr (.inr (.inl ⟨rfl, hp0, .inl hp⟩))), fun _ => stopProc_ack s⟩ hok
  · obtain ⟨c, -, hp, -⟩ := id hfailed
    refine endsWell_of_endsFailed ⟨hran.accessed, fun _ hs => hs.of_ran_not_idle hran (.inr hp) ?_,
      .inr (.inr (.inr (.inl ⟨rfl, hp0, .inr hp⟩))), fun _ => stopProc_ack s⟩ hfailed
    rw [hd, hx]
    exact hs.rxEnd_in_read

theorem recoverProc_endsWell : EndsWell .recover recoverProc s := by
  rcases recoverProc_spec s with ⟨-, h⟩ | ⟨hlegal, hran, hok, hp, hd, hx, -, hack, -⟩
  · exact endsWell_of_raise (.inl rfl) h
  refine endsWell_of_ok ⟨hran.accessed, fun _ hs => hs.of_ran_idle hran hp hd hx, ?_, fun _ => hack⟩ hok
  rcases hlegal with hp0 | hp0
  · exact .inl (hp.trans hp0.symm)
  · exact .inr (.inr (.inr (.inr ⟨rfl, hp0, hp⟩)))

theorem calcTempProc_endsWell : EndsWell .calcTemp calcTempProc s := by
  cases hv : s.status.calValid
  case false => exact endsWell_of_raise (.inr (.inr rfl)) (calcTempProc_of_uncalibrated hv)
  case true =>
    refine ⟨s, .refl _ s, ?_⟩
    rw [calcTempProc_of_calibrated hv]
    exact .ok .calcTemp

end Primitives

section Composites
/-! ### The composites -/

variable {i : Instr} {s t : State}

/-- Register accesses from Idle, however many and however they end, are a legal way for a composite. -/
theorem reaches_of_accessed {n : Nat} (hi : ¬TakesNoAck i) (hs : s.status.phase = .idle) (hacc : Accessed n s t)
    (hn : n ≤ drawBound s.cfg.pollLimit s.cfg.retryLimit i) (hp : t.status.phase = .idle)
    (hsettled : s.cfg.Valid → Settled t) : Reaches i s t :=
  ⟨hacc.mono hn, fun hv _ => hsettled hv, .inl (hp.trans hs.symm), (absurd · hi)⟩

theorem settled_of_idle {j : Nat} (hp : t.status.phase = .idle) (hd : t.status.dir = .write)
    (hx : t.status.rxEnd = false) (ha : t.status.attempts = BitVec.ofNat 4 j) (hj : j ≤ t.cfg.retryLimit)
    (hmax : t.cfg.retryLimit ≤ 15) : Settled t where
  phase := by simp [hp]
  idle_clears := fun _ => ⟨hd, hx⟩
  rxEnd_in_read := by simp [hx]
  attempts := by rw [ha, attempt_toNat (hj.trans hmax)]; exact hj

/-- A register access from Idle settles (R140). -/
theorem regAccess_settled {α : Type} {a : Addr7} {d : Nat} {ev : α → List BusEvent} {once : State → Run α}
    (ho : IsAttempt s.cfg a d ev once) (hs : s.status.phase = .idle) (ha : s.slaveAddr = a) (hv : s.cfg.Valid) :
    Settled (regAccess once s).2 := by
  obtain ⟨-, hpos, hmax⟩ := hv
  obtain ⟨hacc, hp, hrest, hends⟩ := regAccessFrom_spec ho s.cfg.retryLimit 1 s hs rfl ha
  obtain ⟨hd, hx, -⟩ := hrest hpos
  have hcfg : (regAccess once s).2.cfg.retryLimit = s.cfg.retryLimit := by rw [regAccess, hacc.frame.cfg]
  rcases hends with ⟨v, j, -, -, -, hj, hatt, -⟩ | ⟨-, -, hrec⟩
  · exact settled_of_idle hp hd hx hatt (by omega) (by omega)
  · exact settled_of_idle hp hd hx (hrec hpos).1 (by omega) (by omega)

/-- An exhausted register access has recorded its exhaustion (R140, 60_exceptions.md R200). -/
theorem regAccess_exhausted {α : Type} {a : Addr7} {d : Nat} {ev : α → List BusEvent} {once : State → Run α}
    {f : Failure} (ho : IsAttempt s.cfg a d ev once) (hs : s.status.phase = .idle) (ha : s.slaveAddr = a)
    (hf : (regAccess once s).1 = .raised f) (hv : s.cfg.Valid) :
    (regAccess once s).2.status.attempts.toNat = s.cfg.retryLimit ∧ (regAccess once s).2.status.lastErr ≠ none := by
  obtain ⟨-, hpos, hmax⟩ := hv
  obtain ⟨-, -, -, ⟨v, j, l, hok, -⟩ | ⟨-, -, hrec⟩⟩ := regAccessFrom_spec ho s.cfg.retryLimit 1 s hs rfl ha
  · rw [regAccess, hok] at hf
    cases hf
  · obtain ⟨hatt, herr⟩ := hrec hpos
    refine ⟨?_, herr⟩
    rw [regAccess, hatt, attempt_toNat (by omega)]
    omega

/-- A sequence of register accesses from Idle settles. -/
theorem sensorReads_settled {rs : List Byte} (hrs : rs ≠ []) (hs : s.status.phase = .idle) (hv : s.cfg.Valid) :
    Settled (sensorReads rs s).2 := by
  obtain ⟨-, hpos, hmax⟩ := hv
  obtain ⟨hacc, hp, hrest, -⟩ := sensorReads_spec rs s hs hpos
  obtain ⟨hd, hx, j, -, hj, hatt⟩ := hrest hrs
  have hcfg := hacc.frame.cfg
  exact settled_of_idle hp hd hx hatt (by rw [hcfg]; exact hj) (by rw [hcfg]; exact hmax)

theorem sensorReads_exhausted {rs : List Byte} (hs : s.status.phase = .idle) (hnone : (sensorReads rs s).1 = none)
    (hv : s.cfg.Valid) :
    (sensorReads rs s).2.status.attempts.toNat = s.cfg.retryLimit ∧ (sensorReads rs s).2.status.lastErr ≠ none := by
  obtain ⟨-, hpos, hmax⟩ := hv
  obtain ⟨-, -, -, hexhausted, -⟩ := sensorReads_spec rs s hs hpos
  obtain ⟨hatt, herr⟩ := hexhausted hnone
  exact ⟨by rw [hatt, attempt_toNat hmax], herr⟩

/-- For a composite only its body from Idle matters (41_register_access.md R145). -/
theorem endsWell_whenIdle {body : State → Run Unit} (h : s.status.phase = .idle → EndsWell i body s) :
    EndsWell i (whenIdle body) s := by
  by_cases hs : s.status.phase = .idle
  · obtain ⟨u, hreach, hend⟩ := h hs
    exact ⟨u, hreach, by rw [whenIdle_of_idle body hs]; exact hend⟩
  · exact endsWell_of_raise (.inl rfl) (whenIdle_of_not_idle body hs)

theorem readRegister_endsWell (r : Byte) (hs : s.status.phase = .idle) :
    EndsWell (.readReg r) (readRegister r) s := by
  have hattempt := readOnce_isAttempt s.cfg s.slaveAddr r
  have hp := readSensor_phase r s hs
  refine ⟨(readSensor r s).2, reaches_of_accessed (by simp [TakesNoAck]) hs (readSensor_accessed r s hs) le_rfl hp
    (regAccess_settled hattempt hs rfl), ?_⟩
  cases hends : (readSensor r s).1
  case ok v =>
    simp only [readRegister, andThen, hends]
    exact .ok (.readReg v)
  case raised f =>
    simp only [readRegister, andThen, hends]
    exact .exhausted (.inl (readSensor_raised hends)) hp (regAccess_exhausted hattempt hs rfl hends)

theorem writeRegister_endsWell (r x : Byte) (hs : s.status.phase = .idle) :
    EndsWell (.writeReg r x) (regAccess (writeOnce r x)) s := by
  have hattempt := writeOnce_isAttempt s.cfg s.slaveAddr r x
  obtain ⟨hacc, hp, -⟩ := regAccessFrom_spec hattempt s.cfg.retryLimit 1 s hs rfl rfl
  refine ⟨_, reaches_of_accessed (by simp [TakesNoAck]) hs hacc le_rfl hp (regAccess_settled hattempt hs rfl), ?_⟩
  cases hends : (regAccess (writeOnce r x) s).1
  case ok v => exact .ok .nothing
  case raised f =>
    exact .exhausted (.inl (regAccessFrom_raised hends)) hp (regAccess_exhausted hattempt hs rfl hends)

theorem loadStore_endsWell (hs : s.status.phase = .idle) : EndsWell .loadCal loadStore s := by
  cases hv : s.status.calValid
  case true => exact endsWell_of_raise (.inr (.inl rfl)) (loadStore_of_loaded hv)
  case false =>
    have hp := sensorReads_phase (calRegs s.cfg) s hs
    refine ⟨_, reaches_of_accessed (by simp [TakesNoAck]) hs (sensorReads_accessed (calRegs s.cfg) s hs)
      (Nat.mul_assoc _ _ _).ge hp (sensorReads_settled (List.cons_ne_nil _ _) hs), ?_⟩
    rw [loadStore_of_unloaded hv]
    rcases loadCoefficients_eq s with ⟨hnone, h⟩ | ⟨b0, b1, b2, b3, b4, -, h⟩ <;> rw [h]
    · exact .exhausted (.inr rfl) hp (sensorReads_exhausted hs hnone)
    · exact .ok (.loadCal _ _ _)

theorem readRawSample_endsWell (hs : s.status.phase = .idle) : EndsWell .readRaw readRawSample s := by
  have hp := sensorReads_phase (rawRegs s.cfg) s hs
  refine ⟨_, reaches_of_accessed (by simp [TakesNoAck]) hs (sensorReads_accessed (rawRegs s.cfg) s hs)
    (Nat.mul_assoc _ _ _).ge hp (sensorReads_settled (List.cons_ne_nil _ _) hs), ?_⟩
  rcases readRawSample_eq s with ⟨hnone, h⟩ | ⟨m, l, x, -, h⟩ <;> rw [h]
  · exact .exhausted (.inl rfl) hp (sensorReads_exhausted hs hnone)
  · exact .ok (.readRaw _)

end Composites

section Commands
/-! ### Every command -/

/-- The procedure of each command (40_transport.md R106). -/
def procedure : Instr → State → Run Unit
  | .start a d => startProc a d
  | .writeByte b => writeByteProc b
  | .readByte k => receiveByte k
  | .stop => stopProc
  | .recover => recoverProc
  | .readReg r => whenIdle (readRegister r)
  | .writeReg r x => whenIdle (regAccess (writeOnce r x))
  | .loadCal => whenIdle loadStore
  | .readRaw => whenIdle readRawSample
  | .calcTemp => calcTempProc

theorem exec_eq (i : Instr) (s : State) : exec i s = .next (complete (procedure i) s) := by
  cases i <;> rfl

theorem procedure_endsWell (i : Instr) (s : State) : EndsWell i (procedure i) s := by
  cases i
  case start a d => exact startProc_endsWell s a d
  case writeByte b => exact writeByteProc_endsWell s b
  case readByte k => exact receiveByte_endsWell s k
  case stop => exact stopProc_endsWell s
  case recover => exact recoverProc_endsWell s
  case readReg r => exact endsWell_whenIdle (readRegister_endsWell r)
  case writeReg r x => exact endsWell_whenIdle (writeRegister_endsWell r x)
  case loadCal => exact endsWell_whenIdle loadStore_endsWell
  case readRaw => exact endsWell_whenIdle readRawSample_endsWell
  case calcTemp => exact calcTempProc_endsWell s

/-- The completion of a command: its procedure runs from the opened state and ends, then `RESULT` and `BUSY` are
written (40_transport.md R105). -/
theorem exec_cases {i : Instr} {s t : State} (h : exec i s = .next t) :
    ∃ u e v, Reaches i (opened s) u ∧ Ending i (opened s) u e v ∧ t = setBusy false (setResult e v) := by
  obtain ⟨u, hreach, hend⟩ := procedure_endsWell i (opened s)
  rw [exec_eq] at h
  cases h
  exact ⟨u, _, _, hreach, hend, rfl⟩

end Commands

end Sys2Proof.Machine
end

section
/-! PROOFS. What follows for every command from how it ends: completion, failed checks, `PHASE`, the registers' writers
and the draws (10_state.md R20, R44, R45; 60_exceptions.md R201; 70_reset_and_hazards.md R242, R244). -/

namespace Sys2Proof.Machine

section Committed
/-! ### What a commit leaves -/

variable {i : Instr} {s u v : State} {e : Option Failure}

/-- A commit writes the data registers, the store and `TEMP_OVF` only. -/
theorem Commits.frame (h : Commits i u v) :
    v = { u with
          data := v.data, raw := v.raw, temp := v.temp, calT1 := v.calT1, calT2 := v.calT2, calT3 := v.calT3
          status := { u.status with calValid := v.status.calValid, tempOvf := v.status.tempOvf } } := by
  cases h <;> rfl

/-- Each ending reaches the state before `RESULT` by a commit, of nothing where it failed. -/
theorem Ending.commits (h : Ending i s u e v) : Commits i u v := by
  cases h
  case ok h => exact h
  all_goals exact .nothing

/-- Where it failed nothing is committed. -/
theorem Ending.eq_of_failed (h : Ending i s u e v) (he : e ≠ none) : v = u := by
  cases h
  case ok => exact absurd rfl he
  all_goals rfl

/-- The registers that commands write beyond the transport, each with the commands that write it (10_state.md R20). -/
theorem Commits.writers (h : Commits i u v) :
    (v.data ≠ u.data → (∃ k, i = .readByte k) ∨ ∃ r, i = .readReg r) ∧
      (v.raw ≠ u.raw → i = .readRaw) ∧
      (v.temp ≠ u.temp ∨ v.status.tempOvf ≠ u.status.tempOvf → i = .calcTemp) ∧
      (v.calT1 ≠ u.calT1 ∨ v.calT2 ≠ u.calT2 ∨ v.calT3 ≠ u.calT3 ∨ v.status.calValid ≠ u.status.calValid →
        i = .loadCal) ∧
      v.status.ack = u.status.ack := by
  cases h <;> simp [compensated]

end Committed

/-- Settles O8: the procedure changes what the transport writes, the commit the data registers, and completion `RESULT`
and `BUSY`. -/
theorem everyCommandCompletes : Obligations.EveryCommandCompletes := by
  unfold Obligations.EveryCommandCompletes
  intro i s
  refine ⟨_, exec_eq i s, ?_⟩
  obtain ⟨u, e, v, hreach, hend, ht⟩ := exec_cases (exec_eq i s)
  have hframe := hreach.accessed.frame
  rw [ht, hend.commits.frame]
  exact ⟨rfl, hframe.cmd, hframe.slaveAddr, hframe.ovr, hframe.agenda, hframe.reads, hframe.cfg,
    hreach.accessed.busyReads, hreach.accessed.log⟩

/-- Settles O21: a failed check is the one ending with such a result, and it leaves the opened state. -/
theorem failedCheckChangesNothingElse : Obligations.FailedCheckChangesNothingElse := by
  unfold Obligations.FailedCheckChangesNothingElse
  intro i s t h
  obtain ⟨u, e, v, -, hend, rfl⟩ := exec_cases h
  cases hend
  case refused f hf hu =>
    subst hu
    refine ⟨fun g _ hg => ?_, ?_⟩
    · cases hg; rfl
    · rcases hf with rfl | rfl | rfl <;> simp
  case busFailed => simp
  case exhausted f hf _ _ => rcases hf with rfl | rfl <;> simp
  case ok => simp

/-- Settles O55: `PHASE` is what the procedure left. -/
theorem phaseTransitions : Obligations.PhaseTransitions := by
  unfold Obligations.PhaseTransitions
  intro i s t h _
  obtain ⟨u, e, v, hreach, hend, rfl⟩ := exec_cases h
  rw [hend.commits.frame]
  exact hreach.phase

/-- Settles O54: from any other `PHASE` the result is SEQUENCE_ERROR, and no row of R44's table is a composite's. -/
theorem compositesEndIdle : Obligations.CompositesEndIdle := by
  unfold Obligations.CompositesEndIdle
  intro i s t hcomposite h hresult
  have hidle : s.status.phase = .idle := by
    by_contra hne
    rw [compositesNeedIdle s hne i hcomposite] at h
    cases h
    exact hresult rfl
  refine ⟨hidle, ?_⟩
  rcases phaseTransitions i s t h (by simp [hidle]) with hp | ⟨⟨a, d, rfl⟩, -⟩ | ⟨-, hp, -⟩ | ⟨-, hp, -⟩ | ⟨-, hp, -⟩
  · rw [hp, hidle]
  · simp at hcomposite
  all_goals
    rw [hidle] at hp
    cases hp

/-- Settles O20: a bus failure is the one ending with such a result, and it is in Error, where every check of `PHASE`
fails but RECOVER's. -/
theorem failedPrimitiveBlocksUntilRecover : Obligations.FailedPrimitiveBlocksUntilRecover := by
  unfold Obligations.FailedPrimitiveBlocksUntilRecover
  refine ⟨fun i s t c h hresult => ?failed, fun s hp => ⟨fun i hrecover hcalc => ⟨?blocked, hp⟩, ?recovers⟩⟩
  case failed =>
    obtain ⟨u, e, v, -, hend, rfl⟩ := exec_cases h
    cases hend
    case busFailed hp _ => exact hp
    case refused f hf _ => rcases hf with rfl | rfl | rfl <;> cases hresult
    case exhausted f hf _ _ => rcases hf with rfl | rfl <;> cases hresult
    case ok => cases hresult
  case blocked =>
    have hcomposite := compositesNeedIdle s (by simp [hp]) i
    cases i
    case start a d => exact (startOutcomes a d s).2.1 (by simp [hp]) (by simp [hp])
    case writeByte b => exact (writeByteOutcomes b s).2.1 (by simp [hp])
    case readByte k => exact (readByteOutcomes k s).2.1 (by simp [hp])
    case stop => exact (stopOutcomes s).2.1 (by simp [hp])
    case recover => exact absurd rfl hrecover
    case calcTemp => exact absurd rfl hcalc
    all_goals exact hcomposite (by simp)
  case recovers => exact ⟨_, (recoverOutcomes s).2.2 (.inr hp), rfl⟩

/-- Settles O56: the procedure leaves the registers that a commit writes, and a commit of something is an OK ending. -/
theorem registersHaveOnlyTheirWriters : Obligations.RegistersHaveOnlyTheirWriters := by
  unfold Obligations.RegistersHaveOnlyTheirWriters
  intro i s t h
  obtain ⟨u, e, v, hreach, hend, rfl⟩ := exec_cases h
  have hframe := hreach.accessed.frame
  obtain ⟨hdata, hraw, htemp, hstore, hack⟩ := hend.commits.writers
  rw [hframe.data] at hdata
  rw [hframe.raw] at hraw
  rw [hframe.temp, hframe.tempOvf] at htemp
  rw [hframe.calT1, hframe.calT2, hframe.calT3, hframe.calValid] at hstore
  have hok (hne : v ≠ u) : e = none := by_contra fun he => hne (hend.eq_of_failed he)
  refine ⟨fun hne => ⟨hok ?data, hdata hne⟩, fun hne => ⟨hok ?raw, hraw hne⟩, fun hne => ⟨hok ?temp, htemp hne⟩,
    fun hne => ⟨hok ?store, hstore hne⟩, fun hne => ?ack⟩
  case data => rintro rfl; exact hne hframe.data
  case raw => rintro rfl; exact hne hframe.raw
  case temp => rintro rfl; exact hne.elim (· hframe.temp) (· hframe.tempOvf)
  case store =>
    rintro rfl
    exact hne.elim (· hframe.calT1) (·.elim (· hframe.calT2) (·.elim (· hframe.calT3) (· hframe.calValid)))
  case ack =>
    have htakes : ¬TakesNoAck i := fun hi => hne (hack.trans (hreach.ack hi))
    simpa [TakesNoAck, not_or] using htakes

/-- The draws of a command are those of its procedure. -/
theorem exec_drawn {i : Instr} {s t : State} (h : exec i s = .next t) :
    s.env.drawn ≤ t.env.drawn ∧ t.env.drawn ≤ s.env.drawn + drawBound s.cfg.pollLimit s.cfg.retryLimit i := by
  obtain ⟨u, e, v, hreach, hend, rfl⟩ := exec_cases h
  rw [hend.commits.frame]
  exact ⟨hreach.accessed.drawn_ge, hreach.accessed.drawn_le⟩

/-- Settles O58: a failed check leaves ENV as it was, and so does the completion of a refused word. -/
theorem drawsAreBounded : Obligations.DrawsAreBounded := by
  unfold Obligations.DrawsAreBounded
  refine ⟨fun i s t _ h => ?bounded, fun s t hs hill h => ?illegal, by decide, by decide, by decide, by decide⟩
  case bounded =>
    obtain ⟨hge, hle⟩ := exec_drawn h
    refine ⟨hge, hle, fun f hf hresult => ?_⟩
    rw [(failedCheckChangesNothingElse i s t h).1 f hf hresult]
    rfl
  case illegal =>
    have hrefused : ∀ i, decode s.cmd ≠ .ok i := fun i hi => by
      rw [(wellFormed_iff_exists_decode s.cmd).mpr ⟨i, hi⟩] at hill
      cases hill
    rw [illegalWordsCompleteIllegal.2 s hs hrefused] at h
    cases h
    rfl

end Sys2Proof.Machine
end

section
/-! PROOFS. The invariant of the block: it holds at reset and every step keeps it (10_state.md R26, R29, R30, R34, R38,
R43; 60_exceptions.md R200). -/

namespace Sys2Proof.Machine

section InvariantParts
/-! ### The invariant by its parts -/

variable {s t : State}

/-- What `Inv` says of `RESULT`: a failure of the bus or of a register access left its record (R200). -/
structure ResultRecorded (s : State) : Prop where
  bus : ∀ c, s.status.result = some (.bus c) → s.status.phase = .error ∧ s.status.lastErr = some c
  exhaustion : s.status.result = some .accessExhausted ∨ s.status.result = some .calReadFailure →
    s.status.phase = .idle ∧ s.status.attempts.toNat = s.cfg.retryLimit ∧ s.status.lastErr ≠ none

/-- The store holds its reset value until LOAD_CAL succeeds (R38). -/
def StoreEmpty (s : State) : Prop := s.status.calValid = false → s.calT1 = 0 ∧ s.calT2 = 0 ∧ s.calT3 = 0

theorem Inv.of_parts (hcfg : s.cfg.Valid) (hset : Settled s) (hresult : ResultRecorded s) (hstore : StoreEmpty s) :
    Inv s where
  cfg_valid := hcfg
  phase_settled := hset.phase
  idle_clears := hset.idle_clears
  rxEnd_in_read := hset.rxEnd_in_read
  attempts_bounded := hset.attempts
  bus_failure_recorded := hresult.bus
  exhaustion_recorded := hresult.exhaustion
  store_empty := hstore

/-- A command begins settled: completion clears `ATTEMPTS` first. -/
theorem Inv.settled_opened (h : Inv s) : Settled (opened s) :=
  ⟨h.phase_settled, h.idle_clears, h.rxEnd_in_read, Nat.zero_le _⟩

/-- The fields that `Inv` speaks of. -/
def invFields (s : State) : Config × Phase × Dir × Bool × BitVec 4 × Option Failure × Option BusFailure ×
    (Bool × BitVec 16 × BitVec 16 × BitVec 8) :=
  (s.cfg, s.status.phase, s.status.dir, s.status.rxEnd, s.status.attempts, s.status.result, s.status.lastErr,
    calStore s)

/-- A move that leaves those fields keeps the invariant. -/
theorem Inv.congr (h : Inv s) (heq : invFields t = invFields s) : Inv t := by
  simp only [invFields, Prod.mk.injEq, calStore_eq_iff] at heq
  obtain ⟨hcfg, hphase, hdir, hrx, hatt, hresult, herr, hvalid, ht1, ht2, ht3⟩ := heq
  obtain ⟨h1, h2, h3, h4, h5, h6, h7, h8⟩ := h
  constructor <;> simpa only [hcfg, hphase, hdir, hrx, hatt, hresult, herr, hvalid, ht1, ht2, ht3]

end InvariantParts

section Commands
/-! ### Commands -/

variable {i : Instr} {s u v : State} {e : Option Failure}

theorem Commits.settled (h : Commits i u v) (hu : Settled u) : Settled v := by
  rw [h.frame]
  exact ⟨hu.phase, hu.idle_clears, hu.rxEnd_in_read, hu.attempts⟩

/-- Only LOAD_CAL writes the store, and it sets `CAL_VALID` with it. -/
theorem Commits.storeEmpty (h : Commits i u v) (hu : StoreEmpty u) : StoreEmpty v := by
  cases h
  case loadCal => intro hv; cases hv
  all_goals exact hu

theorem StoreEmpty.of_onlyTransport (hs : StoreEmpty s) (h : OnlyTransport s u) : StoreEmpty u := by
  intro hv
  rw [h.calT1, h.calT2, h.calT3]
  exact hs (h.calValid ▸ hv)

theorem resultRecorded_of_checkFailure {f : Failure} (hf : IsCheckFailure f ∨ f = .illegalCommand)
    (h : s.status.result = some f) : ResultRecorded s := by
  rcases hf with (rfl | rfl | rfl) | rfl <;> exact ⟨by simp [h], by simp [h]⟩

/-- Each ending records its result (R200). -/
theorem Ending.resultRecorded (h : Ending i s u e v) (hv : s.cfg.Valid) (hcfg : u.cfg = s.cfg) :
    ResultRecorded (setBusy false (setResult e v)) := by
  cases h
  case refused f hf _ => exact resultRecorded_of_checkFailure (.inl hf) rfl
  case busFailed c hp herr =>
    refine ⟨fun c' hc => ?_, by simp⟩
    cases hc
    exact ⟨hp, herr⟩
  case exhausted f hf hp hrec =>
    obtain ⟨hatt, herr⟩ := hrec hv
    refine ⟨fun c hc => ?_, fun _ => ⟨hp, hatt.trans (congrArg Config.retryLimit hcfg).symm, herr⟩⟩
    rcases hf with rfl | rfl <;> cases hc
  case ok => exact ⟨by simp, by simp⟩

theorem exec_inv {t : State} (hinv : Inv s) (h : exec i s = .next t) : Inv t := by
  obtain ⟨u, e, v, hreach, hend, rfl⟩ := exec_cases h
  have hframe := hreach.accessed.frame
  have hcommit := hend.commits
  have hcfg : v.cfg = s.cfg := by rw [hcommit.frame]; exact hframe.cfg
  have hset : Settled v := hcommit.settled (hreach.settled hinv.cfg_valid hinv.settled_opened)
  have hstore : StoreEmpty v := hcommit.storeEmpty (.of_onlyTransport (s := opened s) hinv.store_empty hframe)
  refine .of_parts ?_ ⟨hset.phase, hset.idle_clears, hset.rxEnd_in_read, hset.attempts⟩
    (hend.resultRecorded hinv.cfg_valid hframe.cfg) hstore
  rw [show (setBusy false (setResult e v)).cfg = s.cfg from hcfg]
  exact hinv.cfg_valid

theorem Inv.failedCheck_illegalCommand (h : Inv s) : Inv (failedCheck .illegalCommand s) :=
  .of_parts h.cfg_valid ⟨h.phase_settled, h.idle_clears, h.rxEnd_in_read, Nat.zero_le _⟩
    (resultRecorded_of_checkFailure (.inr rfl) rfl) h.store_empty

end Commands

section Moves
/-! ### The moves of the agents -/

variable {s t : State}

theorem seqTurn_inv (hinv : Inv s) (h : seqTurn s = .next t) : Inv t := by
  rcases seqTurn_cases h with ⟨-, rfl⟩ | ⟨-, ⟨i, -, hexec⟩ | ⟨-, rfl⟩⟩
  · exact hinv
  · exact exec_inv hinv hexec
  · exact hinv.failedCheck_illegalCommand

theorem windowRead_inv (off : Nat) (hinv : Inv s) : Inv (windowRead off s) := by
  rcases windowRead_cases off s with ⟨v, h⟩ | ⟨-, -, v, h⟩ <;> rw [h] <;> exact hinv.congr rfl

theorem windowWrite_inv (off : Nat) (v : Word) (hinv : Inv s) : Inv (windowWrite off v s) := by
  rcases windowWrite_cases off v s with h | ⟨-, h⟩ | ⟨-, -, h⟩ | ⟨-, -, h⟩ | ⟨-, -, h⟩ <;> rw [h] <;>
    exact hinv.congr rfl

theorem envStep_inv (b : BusState) (hinv : Inv s) : Inv (envStep b s) := by
  unfold envStep
  split
  · exact hinv
  · exact hinv.congr rfl

/-- The reset values meet the invariant with any parameters in range. -/
theorem blockReset_inv (hcfg : s.cfg.Valid) : Inv (blockReset s) :=
  .of_parts hcfg ⟨nofun, fun _ => ⟨rfl, rfl⟩, nofun, Nat.zero_le _⟩ ⟨nofun, nofun⟩ fun _ => ⟨rfl, rfl, rfl⟩

end Moves

/-- Settles O53: the SEQ's turn by how a command ends, each other move by the fields it leaves. -/
theorem stepKeepsInv : Obligations.StepKeepsInv := by
  unfold Obligations.StepKeepsInv
  intro s t hinv h
  have hlater (rest : List Action) : Inv (setAgenda rest s) := hinv.congr rfl
  rcases step_cases h with ⟨u, rfl, -, hturn⟩ | ⟨a, rest, -, rfl, -⟩ | ⟨a, v, rest, -, rfl, -⟩ |
    ⟨b, rest, -, rfl⟩ | ⟨rest, -, rfl⟩
  · exact seqTurn_inv (hlater _) hturn
  · exact windowRead_inv _ (hlater rest)
  · exact windowWrite_inv _ v (hlater rest)
  · exact envStep_inv b (hlater rest)
  · exact blockReset_inv (s := setAgenda rest s) hinv.cfg_valid

/-- Settles O52: the reset state is a block reset's, and R9's limits are in range. -/
theorem resetMeetsInv : Obligations.ResetMeetsInv :=
  blockReset_inv (s := State.reset) (by decide)

end Sys2Proof.Machine
end

section
/-! PROOFS. The moves of the agents (00_scope.md R7): the SEQ's completion, ENV's step, the block reset, and what every
step keeps (40_transport.md R105, R106; 10_state.md R40, R42; 70_reset_and_hazards.md R230). -/

namespace Sys2Proof.Machine

section Completion
/-! ### The SEQ's completion of the latched command -/

theorem runCommand_of_decoded {s : State} {i : Instr} (h : decode s.cmd = .ok i) : runCommand s = exec i s := by
  rw [runCommand, h]

end Completion

/-- Settles O6: the SEQ's turn runs the word it decodes. -/
theorem stepRunsDecodedCommand : Obligations.StepRunsDecodedCommand := by
  unfold Obligations.StepRunsDecodedCommand
  intro s i hs hi
  rw [step_of_aboutToComplete hs]
  exact runCommand_of_decoded (s := laterMoves s) hi

theorem tableWord_32 (w : Nat) : tableWord 32 w = BitVec.ofNat 32 w := by
  apply BitVec.eq_of_toNat_eq
  simp [tableWord]

/-- Settles O7: the placed word is about to complete, and the table's reading of it is the decoder's. -/
theorem placedWordRunsNext : Obligations.PlacedWordRunsNext := by
  unfold Obligations.PlacedWordRunsNext
  intro s w i hi
  have hdecode : decode (s.withFetchWord 32 w).cmd = .ok i := by
    rw [decodeTableWord, if_pos le_rfl] at hi
    change decode (tableWord 32 w) = .ok i
    cases hd : decode (tableWord 32 w) <;> rw [hd] at hi <;> cases hi
    rfl
  rw [stepRunsDecodedCommand (s.withFetchWord 32 w) i ⟨rfl, .inr ⟨_, rfl⟩⟩ hdecode, ← tableWord_32]
  rfl

section EnvAndReset
/-! ### ENV's step and the block reset -/

theorem step_envBusState {s : State} {b : BusState} {rest : List Action} (ha : s.agenda = .envBusState b :: rest) :
    step s = .next (envStep b (setAgenda rest s)) := by
  rw [step, ha]
  rfl

theorem step_reset {s : State} {rest : List Action} (ha : s.agenda = .reset :: rest) :
    step s = .next (blockReset (setAgenda rest s)) := by
  rw [step, ha]
  rfl

theorem envStep_of_idle {s : State} (b : BusState) (h : s.status.busy = false) : envStep b s = setBusState b s :=
  if_neg (by simp [h])

theorem envStep_of_busy {s : State} (b : BusState) (h : s.status.busy = true) : envStep b s = s := if_pos h

end EnvAndReset

/-- Settles O9: ENV's step has its effect while `BUSY` = 0 only. -/
theorem envStepSetsBusState : Obligations.EnvStepSetsBusState := by
  unfold Obligations.EnvStepSetsBusState
  intro s b rest ha
  rw [step_envBusState ha]
  refine ⟨fun hb => ?_, fun hb => ?_⟩
  · rw [envStep_of_idle (s := setAgenda rest s) b hb]; rfl
  · rw [envStep_of_busy (s := setAgenda rest s) b hb]; rfl

/-- Settles O51: the move is `blockReset`, which keeps what is outside the block. -/
theorem blockResetRestoresResetState : Obligations.BlockResetRestoresResetState := fun _ _ ha => step_reset ha

/-- Settles O32: a step keeps a loaded store or is a block reset. -/
theorem calibrationIsImmutable : Obligations.CalibrationIsImmutable := by
  unfold Obligations.CalibrationIsImmutable
  intro s t hv hreset h
  rcases step_calStore hv h with hkept | ⟨rest, ha⟩
  · obtain ⟨hvalid, hcoefficients⟩ := calStore_eq_iff.mp hkept
    exact ⟨hvalid.trans hv, hcoefficients⟩
  · exact absurd ha (hreset rest)

section ParametersAndLog
/-! ### The parameters and `BUSLOG` over one move -/

/-- The parameters are kept and `BUSLOG` only grows (00_scope.md R9, R40). -/
def KeepsCfgAndLog (s t : State) : Prop := t.cfg = s.cfg ∧ LogExtends s t

theorem KeepsCfgAndLog.refl (s : State) : KeepsCfgAndLog s s := ⟨rfl, .refl s⟩

theorem exec_keepsCfgAndLog {i : Instr} {s t : State} (h : exec i s = .next t) : KeepsCfgAndLog s t := by
  obtain ⟨t', h', -, -, -, -, -, -, hcfg, -, hlog⟩ := everyCommandCompletes i s
  rw [h] at h'
  cases h'
  exact ⟨hcfg, hlog⟩

theorem seqTurn_keepsCfgAndLog {s t : State} (h : seqTurn s = .next t) : KeepsCfgAndLog s t := by
  rcases seqTurn_cases h with ⟨-, rfl⟩ | ⟨-, ⟨i, -, hexec⟩ | ⟨-, rfl⟩⟩
  · exact .refl _
  · exact exec_keepsCfgAndLog hexec
  · exact ⟨rfl, [], (List.append_nil _).symm⟩

theorem windowRead_keepsCfgAndLog (off : Nat) (s : State) : KeepsCfgAndLog s (windowRead off s) := by
  rcases windowRead_cases off s with ⟨v, h⟩ | ⟨-, -, v, h⟩ <;> rw [h] <;>
    exact ⟨rfl, [], (List.append_nil _).symm⟩

theorem windowWrite_keepsCfgAndLog (off : Nat) (v : Word) (s : State) : KeepsCfgAndLog s (windowWrite off v s) := by
  rcases windowWrite_cases off v s with h | ⟨-, h⟩ | ⟨-, -, h⟩ | ⟨-, -, h⟩ | ⟨-, -, h⟩ <;> rw [h] <;>
    exact ⟨rfl, [], (List.append_nil _).symm⟩

theorem envStep_keepsCfgAndLog (b : BusState) (s : State) : KeepsCfgAndLog s (envStep b s) := by
  unfold envStep
  split <;> exact ⟨rfl, [], (List.append_nil _).symm⟩

/-- A step keeps the parameters, and is a block reset or keeps `BUSLOG`'s beginning. -/
theorem step_keepsCfgAndLog {s t : State} (h : step s = .next t) :
    KeepsCfgAndLog s t ∨ (t.cfg = s.cfg ∧ ∃ rest, s.agenda = .reset :: rest) := by
  rcases step_cases h with ⟨u, rfl, -, hturn⟩ | ⟨a, rest, -, rfl, -⟩ | ⟨a, v, rest, -, rfl, -⟩ |
    ⟨b, rest, -, rfl⟩ | ⟨rest, ha, rfl⟩
  · exact .inl (seqTurn_keepsCfgAndLog (s := { s with agenda := s.agenda.tail }) hturn)
  · exact .inl (windowRead_keepsCfgAndLog _ (setAgenda rest s))
  · exact .inl (windowWrite_keepsCfgAndLog _ _ (setAgenda rest s))
  · exact .inl (envStep_keepsCfgAndLog _ (setAgenda rest s))
  · exact .inr ⟨rfl, rest, ha⟩

end ParametersAndLog

/-- Settles O57: move by move, a block reset apart. -/
theorem parametersFixedAndLogGrows : Obligations.ParametersFixedAndLogGrows := by
  unfold Obligations.ParametersFixedAndLogGrows
  intro s t h
  rcases step_keepsCfgAndLog h with ⟨hcfg, hlog⟩ | ⟨hcfg, rest, ha⟩
  · exact ⟨hcfg, fun _ => hlog⟩
  · exact ⟨hcfg, fun hreset => absurd ha (hreset rest)⟩

section WhileBusy
/-! ### What the other moves leave while `BUSY` = 1 (20_memory.md R66, R67, R76) -/

/-- Nothing of the block but `OVR` is written, and that only set; of ENV only the answers of busy reads move. -/
def FrozenBut (s t : State) : Prop :=
  ∃ l b e, t = { s with reads := s.reads ++ l, env := e, status := { s.status with ovr := b } } ∧
    e.ready = s.env.ready ∧ e.acks = s.env.acks ∧ e.rxBytes = s.env.rxBytes ∧ e.busStates = s.env.busStates ∧
    e.drawn = s.env.drawn ∧ (s.status.ovr = true → b = true)

variable (s : State)

theorem FrozenBut.refl : FrozenBut s s := ⟨[], _, _, by simp, rfl, rfl, rfl, rfl, rfl, id⟩

theorem drawBusyRead_keeps (e : Env) :
    (drawBusyRead e).2.ready = e.ready ∧ (drawBusyRead e).2.acks = e.acks ∧
      (drawBusyRead e).2.rxBytes = e.rxBytes := by
  unfold drawBusyRead
  split <;> exact ⟨rfl, rfl, rfl⟩

theorem windowRead_frozenBut (off : Nat) : FrozenBut s (windowRead off s) := by
  rcases windowRead_cases off s with ⟨v, h⟩ | ⟨-, -, v, h⟩
  · exact ⟨[v], _, _, h, rfl, rfl, rfl, rfl, rfl, id⟩
  · obtain ⟨hready, hacks, hbytes⟩ := drawBusyRead_keeps s.env
    exact ⟨[v], _, _, h, hready, hacks, hbytes, drawBusyRead_busStates _, drawBusyRead_drawn _, id⟩

variable {s}

theorem windowWrite_frozenBut (off : Nat) (v : Word) (hb : s.status.busy = true) :
    FrozenBut s (windowWrite off v s) := by
  by_cases hoff : DroppedWhileBusy off
  · rw [windowWrite_of_dropped v hb hoff]
    exact ⟨[], true, s.env, by simp [setOvr], rfl, rfl, rfl, rfl, rfl, fun _ => rfl⟩
  · rw [windowWrite_of_not_dropped v s hoff]
    exact .refl s

end WhileBusy

/-- Settles O46: the move is a HOST access or an ENV step. -/
theorem busyFreezesRegisters : Obligations.BusyFreezesRegisters := by
  unfold Obligations.BusyFreezesRegisters
  intro s t hb h hne hother
  suffices hfrozen : FrozenBut { s with agenda := s.agenda.tail } t from hfrozen
  rcases step_cases h with ⟨u, -, ha | ⟨rest, ha⟩, -⟩ | ⟨a, rest, ha, rfl, -⟩ | ⟨a, v, rest, ha, rfl, -⟩ |
    ⟨b, rest, ha, rfl⟩ | ⟨rest, ha, -⟩
  · exact absurd ha hne
  · exact absurd ha (hother rest).1
  · rw [ha]; exact windowRead_frozenBut (setAgenda rest s) _
  · rw [ha]; exact windowWrite_frozenBut (s := setAgenda rest s) _ v hb
  · rw [ha, envStep_of_busy (s := setAgenda rest s) b hb]; exact .refl (setAgenda rest s)
  · exact absurd ha (hother rest).2

end Sys2Proof.Machine
end

section
/-! PROOFS. What STOP, RECOVER and READ_BYTE never do (40_transport.md R117, R123, R132). -/

namespace Sys2Proof.Machine

/-- Settles O15: the one bus failure of STOP is BUS_WEDGED. -/
theorem stopNeverTimesOut : Obligations.StopNeverTimesOut := by
  unfold Obligations.StopNeverTimesOut
  intro s t h
  rw [exec_stop] at h
  cases h
  rw [complete_result]
  rcases stopProc_spec (opened s) with ⟨-, hraise⟩ | ⟨-, -, -, ⟨hok, -⟩ | ⟨-, hwedged, -⟩⟩
  · simp [hraise, raise, Ended.result]
  · simp [hok, Ended.result]
  · simp [hwedged, Ended.result]

/-- Settles O16: the legal outcome of `recoverOutcomes` takes one draw, a bus-state sample. -/
theorem recoverNeverFails : Obligations.RecoverNeverFails := by
  unfold Obligations.RecoverNeverFails
  intro s hlegal
  obtain ⟨-, -, hok⟩ := recoverOutcomes s
  exact ⟨_, hok hlegal, rfl, rfl, rfl, drawBusState_drawn s.env, drawBusState_ready s.env⟩

section ReadPhase
/-! ### READ_BYTE's events and the end of the read phase -/

theorem receiveByte_busLog (k : Bool) (s : State) : (receiveByte k s).2.busLog = (readByteProc k s).2.busLog := by
  rcases andThen_cases (readByteProc k s) (fun v t => ((.ok (), setData v t) : Run Unit)) with
    ⟨v, -, h⟩ | ⟨f, -, h⟩ <;> rw [receiveByte, h]
  rfl

/-- READ_BYTE appends no stop condition, forced or not, however it ends (R117). -/
theorem readByteProc_sends_no_stop (k : Bool) (s : State) :
    ∃ l, (readByteProc k s).2.busLog = s.busLog ++ l ∧ BusEvent.stopCond ∉ l ∧ BusEvent.forcedStop ∉ l := by
  rcases readByteProc_spec k s with ⟨-, h⟩ | ⟨-, -, -, ⟨v, -, -, -, -, -, hlog⟩ | ⟨-, -, -, hlog⟩⟩
  · exact ⟨[], by simp [h, raise], by simp, by simp⟩
  · exact ⟨_, hlog, by simp, by simp⟩
  · exact ⟨[], by simp [hlog], by simp, by simp⟩

/-- A READ_BYTE that completes OK stays in DataPhase, and a NACK set `RXEND` (R116). -/
theorem complete_receiveByte_of_ok {k : Bool} {s : State}
    (h : (complete (receiveByte k) s).status.result = none) :
    (complete (receiveByte k) s).status.phase = .dataPhase ∧ (complete (receiveByte k) s).status.rxEnd = !k := by
  rw [complete_result] at h
  rcases readByteProc_spec k (opened s) with
    ⟨hillegal, -⟩ | ⟨-, -, -, ⟨v, hok, hp, hx, -⟩ | ⟨-, hraised, -⟩⟩
  · rw [receiveByte_of_illegal hillegal] at h
    cases h
  · simp only [complete_eq, receiveByte, andThen, hok]
    exact ⟨hp, hx⟩
  · simp only [receiveByte, andThen, hraised] at h
    cases h

end ReadPhase

/-- Settles O18: with `RXEND` = 1 a READ_BYTE is illegal. -/
theorem nackEndsReadPhaseWithoutStop : Obligations.NackEndsReadPhaseWithoutStop := by
  unfold Obligations.NackEndsReadPhaseWithoutStop
  intro k s t h
  rw [exec_readByte] at h
  cases h
  refine ⟨?noStop, fun hk hresult => ?nack⟩
  case noStop =>
    rw [complete_eq, receiveByte_busLog]
    exact readByteProc_sends_no_stop k (opened s)
  case nack =>
    subst hk
    obtain ⟨hp, hx⟩ := complete_receiveByte_of_ok hresult
    refine ⟨hp, hx, fun j => ?_⟩
    obtain ⟨-, hillegal, -⟩ := readByteOutcomes j (complete (receiveByte false) s)
    exact hillegal (by simp [hx])

end Sys2Proof.Machine
end

section
/-! PROOFS. READ_REG and WRITE_REG: with an ENV that answers well at once, whatever ENV answers, and over the attempts
of the retry policy (41_register_access.md R140 to R150). -/

namespace Sys2Proof.Machine

section CompletionOfAccess
/-! ### The commands in terms of their register access -/

variable {s : State}

/-- READ_REG from Idle, in terms of its register access. -/
theorem exec_readReg_of_ok {r v : Byte} {t : State} (hp : s.status.phase = .idle)
    (h : readSensor r (opened s) = (.ok v, t)) :
    exec (.readReg r) s = .next (setBusy false (setResult none (setData v t))) := by
  rw [exec_readReg, complete_whenIdle_of_idle _ hp, complete_readRegister_of_ok (congrArg Prod.fst h), h]

theorem exec_readReg_of_raised {r : Byte} {f : Failure} {t : State} (hp : s.status.phase = .idle)
    (h : readSensor r (opened s) = (.raised f, t)) :
    exec (.readReg r) s = .next (setBusy false (setResult (some f) t)) := by
  rw [exec_readReg, complete_whenIdle_of_idle _ hp, complete_readRegister_of_raised (congrArg Prod.fst h), h]

/-- WRITE_REG from Idle, in terms of its register access. -/
theorem exec_writeReg_of_regAccess {r x : Byte} {e : Ended Unit} {t : State} (hp : s.status.phase = .idle)
    (h : regAccess (writeOnce r x) (opened s) = (e, t)) :
    exec (.writeReg r x) s = .next (setBusy false (setResult e.result t)) := by
  rw [exec_writeReg, complete_whenIdle_of_idle _ hp, complete_eq, h]
  rfl

end CompletionOfAccess

section FailedAttemptsChain
/-! ### Failed attempts, each followed by its recovery (R140) -/

variable {α : Type} {once : State → Run α} {k : Nat} {s u x : State} {v : α}

/-- After `k` failed attempts the access goes on with attempt `k + 1`. -/
theorem regAccessFrom_of_failedAttempts (h : FailedAttempts once k s u) (m : Nat) :
    regAccessFrom once (k + m) 1 s = regAccessFrom once m (k + 1) u := by
  induction k generalizing m u with
  | zero => rw [show u = s from h, Nat.zero_add]
  | succ k ih =>
    obtain ⟨w, hw, f, x, hfailed, rfl⟩ := h
    rw [Nat.succ_add_eq_add_succ, ih hw, regAccessFrom, hfailed]

/-- An access whose first `k` attempts fail and whose next succeeds. -/
theorem regAccess_of_ok (hk : k < s.cfg.retryLimit) (h : FailedAttempts once k s u)
    (hok : once (setAttempts (k + 1) u) = (.ok v, x)) : regAccess once s = (.ok v, x) := by
  obtain ⟨m, hm⟩ := Nat.exists_eq_add_of_lt hk
  rw [regAccess, hm, Nat.add_assoc, regAccessFrom_of_failedAttempts h, regAccessFrom, hok]

/-- An access all of whose attempts fail. -/
theorem regAccess_of_all_failed (hk : s.cfg.retryLimit = k) (h : FailedAttempts once k s u) :
    regAccess once s = (.raised .accessExhausted, u) := by
  have hchain := regAccessFrom_of_failedAttempts h 0
  rwa [Nat.add_zero, ← hk] at hchain

variable {a : Addr7} {d : Nat} {ev : α → List BusEvent}

/-- A recovery follows each failed attempt, so the next one begins in Idle. -/
theorem FailedAttempts.idle (ho : IsAttempt s.cfg a d ev once) (hs : s.status.phase = .idle) (ha : s.slaveAddr = a)
    (h : FailedAttempts once k s u) : u.status.phase = .idle ∧ u.cfg = s.cfg ∧ u.slaveAddr = a := by
  induction k generalizing u with
  | zero => rw [show u = s from h]; exact ⟨hs, rfl, ha⟩
  | succ k ih =>
    obtain ⟨w, hw, f, x, hfailed, rfl⟩ := h
    obtain ⟨hp, hcfg, haddr⟩ := ih hw
    obtain ⟨hran, hends⟩ := ho (setAttempts (k + 1) w) hp hcfg haddr
    rw [hfailed] at hran hends
    rcases hends with ⟨v, hok, -⟩ | ⟨c, -, herror, -⟩
    · cases hok
    · rcases recoverProc_spec x with ⟨hillegal, -⟩ | ⟨-, hrec, -, hidle, -⟩
      · exact absurd (.inr herror) hillegal
      · have hframe := hran.frame.trans hrec.frame
        exact ⟨hidle, hframe.cfg.trans hcfg, hframe.slaveAddr.trans haddr⟩

/-- The attempt that succeeds has left its number in `ATTEMPTS`. -/
theorem attempts_of_ok (ho : IsAttempt s.cfg a d ev once) (hs : s.status.phase = .idle) (ha : s.slaveAddr = a)
    (hk : k + 1 ≤ 15) (h : FailedAttempts once k s u) (hok : once (setAttempts (k + 1) u) = (.ok v, x)) :
    x.status.attempts.toNat = k + 1 := by
  obtain ⟨hp, hcfg, haddr⟩ := h.idle ho hs ha
  obtain ⟨hran, -⟩ := ho (setAttempts (k + 1) u) hp hcfg haddr
  rw [hok] at hran
  rw [hran.attempts]
  exact attempt_toNat hk

end FailedAttemptsChain

/-- Settles O23: the first attempt goes well (`readSensor_of_wellBehaved`). -/
theorem readRegReadsByte : Obligations.ReadRegReadsByte := by
  unfold Obligations.ReadRegReadsByte
  intro r v s hp hP hR hwell
  have hread : readSensor r (opened s) = (.ok v, afterRead r v (setAttempts 1 (opened s))) :=
    readSensor_of_wellBehaved (w := 0) (k := 0) (b := 0) (vs := []) r hp hP hR hwell
  rw [exec_readReg_of_ok hp hread]
  simp [afterRead, endedAccess, opened, setBusy, setResult, setData, setAttempts, readEvents, addressByte, Dir.bit]

/-- Settles O24: the first attempt goes well (`writeOnce_well`). -/
theorem writeRegWritesByte : Obligations.WriteRegWritesByte := by
  unfold Obligations.WriteRegWritesByte
  rintro r x s hp hP hR ⟨⟨rs, hr⟩, ⟨as, ha⟩, ⟨bs, hb⟩, -⟩
  have hwrite : regAccess (writeOnce r x) (opened s) = (.ok (), afterWrite r x (setAttempts 1 (opened s))) :=
    regAccess_of_ok (k := 0) hR rfl (writeOnce_well hp hP hr ha hb)
  rw [exec_writeReg_of_regAccess hp hwrite]
  simp [afterWrite, endedAccess, opened, setBusy, setResult, setAttempts, writeEvents, addressByte, Dir.bit,
    Ended.result]

/-- Settles O26: the completion of one register access (`regAccessFrom_spec`). -/
theorem writeRegOutcomes : Obligations.WriteRegOutcomes := by
  unfold Obligations.WriteRegOutcomes
  intro r x s hp hv
  have hattempt := writeOnce_isAttempt s.cfg s.slaveAddr r x
  obtain ⟨hpos, hmax⟩ : 1 ≤ s.cfg.retryLimit ∧ s.cfg.retryLimit ≤ 15 := hv.2
  obtain ⟨hacc, hidle, hrest, hends⟩ :=
    regAccessFrom_spec hattempt s.cfg.retryLimit 1 (opened s) hp rfl rfl
  obtain ⟨hd, hx, -⟩ := hrest hpos
  refine ⟨_, exec_writeReg_of_regAccess hp rfl, onlyTransportAndResult_of_opened hacc.frame _, hidle, hd, hx,
    hacc.log, ?_⟩
  rcases hends with ⟨v, j, l, hok, hj, hjmax, hatt, hack, hlog, -⟩ | ⟨hraised, -, hrec⟩
  case inl =>
    have hn : (regAccess (writeOnce r x) (opened s)).2.status.attempts.toNat = j :=
      (congrArg BitVec.toNat hatt).trans (attempt_toNat (by omega))
    exact .inl ⟨congrArg Ended.result hok, hn.symm ▸ hj, hn.symm ▸ (by omega), hack, l, hlog⟩
  case inr =>
    exact .inr ⟨congrArg Ended.result hraised, regAccess_exhausted (s := opened s) hattempt hp rfl hraised hv⟩

/-- Settles O27: the chain of failed attempts leads to the last attempt, or past it. -/
theorem retryBound : Obligations.RetryBound := by
  unfold Obligations.RetryBound
  intro s n hp hv hn
  have hlast : n < (opened s).cfg.retryLimit := by rw [opened_cfg, hn]; exact n.lt_succ_self
  have hmax : n + 1 ≤ 15 := hn ▸ hv.2.2
  have hread (r : Byte) := readOnce_isAttempt s.cfg s.slaveAddr r
  have hwrite (r y : Byte) := writeOnce_isAttempt s.cfg s.slaveAddr r y
  refine ⟨fun r v u x h hok => ?readOk, fun r u h => ?readFailed, fun r y u x h hok => ?writeOk,
    fun r y u h => ?writeFailed⟩
  case readOk =>
    have hatt := attempts_of_ok (s := opened s) (hread r) hp rfl hmax h hok
    exact ⟨_, exec_readReg_of_ok hp (regAccess_of_ok hlast h hok), rfl, hatt, rfl⟩
  case readFailed =>
    have hall := regAccess_of_all_failed (s := opened s) hn h
    obtain ⟨hatt, -⟩ := regAccess_exhausted (s := opened s) (hread r) hp rfl (congrArg Prod.fst hall) hv
    rw [hall] at hatt
    exact ⟨_, exec_readReg_of_raised hp hall, rfl, hatt.trans hn⟩
  case writeOk =>
    have hatt := attempts_of_ok (s := opened s) (hwrite r y) hp rfl hmax h hok
    exact ⟨_, exec_writeReg_of_regAccess hp (regAccess_of_ok hlast h hok), rfl, hatt⟩
  case writeFailed =>
    have hall := regAccess_of_all_failed (s := opened s) hn h
    obtain ⟨hatt, -⟩ := regAccess_exhausted (s := opened s) (hwrite r y) hp rfl (congrArg Prod.fst hall) hv
    rw [hall] at hatt
    exact ⟨_, exec_writeReg_of_regAccess hp hall, rfl, hatt.trans hn⟩

section WedgedBus
/-! ### An attempt on a wedged bus, and its recovery (R150) -/

/-- What a wedged attempt leaves. -/
def wedged (b : BusState) (s : State) : State :=
  setLastErr (some .busWedged) (setPhase .error (setBusState b (setEnv (drawBusState s.env).2 s)))

theorem readOnce_of_wedged {r : Byte} {s : State} {b : BusState} (hp : s.status.phase = .idle)
    (hb : (drawBusState s.env).1 = b) (hne : b ≠ .idle) :
    readOnce r s = (.raised (.bus .busWedged), wedged b s) := by
  subst hb
  rw [readOnce, startProc_of_wedged hp hne]
  rfl

/-- A wedged first attempt and its recovery, whatever the recovery samples. -/
theorem failedAttempts_of_wedged {r : Byte} {s : State} {b : BusState} {l : List BusState}
    (hp : s.status.phase = .idle) (hb : s.env.busStates = b :: l) (hne : b ≠ .idle) :
    FailedAttempts (readOnce r) 1 s (recovered (wedged b (setAttempts 1 s))) := by
  refine ⟨s, rfl, _, _, readOnce_of_wedged (s := setAttempts 1 s) hp ?_ hne, ?_⟩
  · simp [drawBusState, hb]
  · rw [recoverProc_of_legal (.inr rfl)]

end WedgedBus

/-- Settles O28: attempt 1 finds the bus wedged, its recovery forces the bus Idle, and attempt 2 goes well. -/
theorem recoveryBeforeRetry : Obligations.RecoveryBeforeRetry := by
  unfold Obligations.RecoveryBeforeRetry
  rintro r v s rest hp hP hR - hb ⟨rs, hr⟩ ⟨as, ha⟩ ⟨xs, hx⟩
  have hread : readSensor r (opened s) =
      (.ok v, afterRead r v (setAttempts 2 (recovered (wedged .busy (setAttempts 1 (opened s)))))) := by
    refine regAccess_of_ok (k := 1) hR (failedAttempts_of_wedged hp hb (by decide)) ?_
    refine readOnce_well (rs := rs) (as := as) (bs := rest) (vs := xs) rfl hP ?_ ?_ ?_ ?_
    all_goals simp [recovered, wedged, hr, ha, hb, hx]
  rw [exec_readReg_of_ok hp hread]
  simp [afterRead, recovered, wedged, endedAccess, opened, setBusy, setResult, setData, setAttempts, setLastErr,
    setPhase, setBusState, setEnv, consumed, drawBusState, hb]

end Sys2Proof.Machine
end

section
/-! PROOFS. What the HOST reads at each offset of the window, while `BUSY` = 0 and while `BUSY` = 1, and the accesses
that are refused (20_memory.md R61, R63, R67, R68; 60_exceptions.md R200). -/

namespace Sys2Proof.Machine

section ReadColumn
/-! ### The read column of the register map (R61) -/

theorem readValue_of_unmapped {off : Nat} (s : State) (h : 0x24 ≤ off) : readValue off s = 0 := by
  unfold readValue
  split
  case h_10 => rfl
  all_goals omega

theorem readValue_readsAs (off : Nat) (s : State) : ReadsAs off s (readValue off s) := by
  refine ⟨?cmd, ?data, ?slaveAddr, ?calT1, ?calT2, ?calT3, ?raw, ?temp, readValue_of_unmapped s⟩
  case cmd => rintro rfl; rfl
  case data | slaveAddr | calT1 | raw => rintro rfl; exact BitVec.toNat_setWidth_of_le (by decide)
  case calT2 | calT3 | temp => rintro rfl; exact BitVec.toInt_signExtend_of_le (by decide)

theorem windowRead_of_register {off : Nat} {s : State} (h : ¬(off = 0x04 ∧ s.status.busy = true)) :
    windowRead off s = logRead (readValue off s) s := if_neg h

theorem windowRead_status_of_busy {s : State} (h : s.status.busy = true) :
    windowRead 0x04 s =
      logRead (statusWord { s.status with busState := (drawBusyRead s.env).1 }) (setEnv (drawBusyRead s.env).2 s) :=
  if_pos ⟨rfl, h⟩

/-- The step of a HOST read listed first. -/
theorem step_hostRead_word {s : State} {off : Nat} {rest : List Action} (hlt : off < 0x40) (halign : off % 4 = 0)
    (ha : s.agenda = .hostRead ⟨.thread, s.cfg.blockBase + off, 4⟩ :: rest) :
    step s = .next (windowRead off (setAgenda rest s)) := by
  rw [step, ha]
  exact hostAccess_word windowRead (setAgenda rest s) hlt halign

end ReadColumn

/-- Settles O42: the value appended is the map's. -/
theorem hostReadReturnsRegister : Obligations.HostReadReturnsRegister := by
  unfold Obligations.HostReadReturnsRegister
  intro s off rest hlt halign hb ha
  refine ⟨readValue off s, ?_, ?_, readValue_readsAs off s⟩
  · rw [step_hostRead_word hlt halign ha, windowRead_of_register (s := setAgenda rest s) (by simp [hb])]
    rfl
  · rintro rfl
    rfl

section BusyStatus
/-! ### `STATUS` as read while `BUSY` = 1 (R67) -/

/-- `BUS_STATE` is bits [5:4] of `STATUS`: no other bit depends on it. -/
theorem statusWord_bit_of_busState (st : Status) (b : BusState) {n : Nat} (h4 : n ≠ 4) (h5 : n ≠ 5) :
    (statusWord { st with busState := b }).getLsbD n = (statusWord st).getLsbD n := by
  have hfield : n < 4 ∨ ¬n - 4 < 2 := by omega
  simp only [statusWord, BitVec.getLsbD_append]
  rcases hfield with hlow | hhigh
  · rw [if_pos hlow, if_pos hlow]
  · rw [if_neg (c := n - 4 < 2) hhigh, if_neg (c := n - 4 < 2) hhigh]

end BusyStatus

/-- Settles O45: only `BUS_STATE` is a draw. -/
theorem busyReadsReturnHeldValues : Obligations.BusyReadsReturnHeldValues := by
  unfold Obligations.BusyReadsReturnHeldValues
  intro s off rest hlt halign hb ha
  have hstep := step_hostRead_word hlt halign ha
  refine ⟨fun hoff => ?register, fun hoff => ?status⟩
  case register =>
    refine ⟨readValue off s, ?_, readValue_readsAs off s⟩
    rw [hstep, windowRead_of_register (s := setAgenda rest s) (by simp [hoff])]
    rfl
  case status =>
    subst hoff
    refine ⟨statusWord { s.status with busState := (drawBusyRead s.env).1 }, ?_, ?_, statusWord_ovrBit _, ?_,
      fun n h4 h5 => statusWord_bit_of_busState s.status _ h4 h5⟩
    · rw [hstep, windowRead_status_of_busy (s := setAgenda rest s) hb]
      rfl
    · rw [statusWord_busyBit]
      exact hb
    · rw [statusWord_busStateField]
      exact busStateCode_toNat _

section RefusedAccess
/-! ### Accesses that are refused (R68; 70_reset_and_hazards.md R241) -/

variable {a : Access} {s : State} (effect : Nat → State → State)

/-- An access that starts in the window touches it, whatever its width. -/
theorem touchesWindow_of_start {c : Config} (hle : c.blockBase ≤ a.addr) (hlt : a.addr < c.blockBase + 0x40) :
    touchesWindow a c = true := by
  have hafter : c.blockBase < a.addr + max a.width 1 := by omega
  simp [touchesWindow, windowSize, hlt, hafter]

theorem hostAccess_of_handler (ht : touchesWindow a s.cfg = true) (ho : a.origin = .handler) :
    hostAccess a effect s = .refused .handlerAccess := by
  rw [hostAccess, if_pos ht, ho]

theorem hostAccess_of_not_word (ht : touchesWindow a s.cfg = true) (ho : a.origin = .thread)
    (hw : a.width ≠ 4 ∨ (a.addr - s.cfg.blockBase) % 4 ≠ 0) :
    hostAccess a effect s = .refused .subWordOrMisaligned := by
  have hword : ¬isWordAccess a s.cfg = true := by
    simp only [isWordAccess, Bool.and_eq_true, decide_eq_true_eq]
    omega
  rw [hostAccess, if_pos ht, ho]
  exact if_neg hword

end RefusedAccess

/-- Settles O47: the access touches the window, so it is refused and does not fault. -/
theorem undefinedAccessesAreRefused : Obligations.UndefinedAccessesAreRefused := by
  unfold Obligations.UndefinedAccessesAreRefused
  intro s a v rest ha hle hlt
  obtain ⟨effect, hstep⟩ : ∃ effect, step s = hostAccess a effect (setAgenda rest s) := by
    rcases ha with ha | ha
    · exact ⟨windowRead, by rw [step, ha]; rfl⟩
    · exact ⟨fun off => windowWrite off v, by rw [step, ha]; rfl⟩
  have htouch := touchesWindow_of_start hle hlt
  rw [hstep]
  exact ⟨hostAccess_of_handler (s := setAgenda rest s) effect htouch,
    hostAccess_of_not_word (s := setAgenda rest s) effect htouch⟩

section ResultCodes
/-! ### `RESULT` as read (R200) -/

theorem failureCode_bounds (f : Failure) : 1 ≤ (failureCode f).toNat ∧ (failureCode f).toNat ≤ 9 := by
  rcases f with ⟨_ | _ | _⟩ | _ | _ | _ | _ | _ | _ <;> decide

end ResultCodes

/-- Settles O49: OK reads 0 and every failure reads 1 to 9. -/
theorem resultCodesAsRead : Obligations.ResultCodesAsRead := by
  unfold Obligations.ResultCodesAsRead
  refine ⟨fun st => ?_, rfl⟩
  rw [statusWord_resultField]
  cases st.result
  case none => exact ⟨by decide, iff_of_true rfl rfl⟩
  case some f =>
    obtain ⟨hpos, hmax⟩ := failureCode_bounds f
    exact ⟨hmax, iff_of_false (Nat.ne_of_gt hpos) (Option.some_ne_none f)⟩

end Sys2Proof.Machine
end

section
/-! PROOFS. The raw sample as arithmetic, and what READ_RAW commits when ENV answers well at once (43_compensation.md
R181, R182). -/

namespace Sys2Proof.Machine

section RawSample
/-! ### The assembly as a sum -/

theorem highNibble_toNat (x : Byte) : (x.extractLsb' 4 4).toNat = x.toNat / 16 := by
  rw [BitVec.extractLsb'_toNat, Nat.shiftRight_eq_div_pow]
  exact Nat.mod_eq_of_lt (by omega)

theorem rawAssemble_toNat (m l x : Byte) :
    (rawAssemble m l x).toNat = m.toNat * 4096 + l.toNat * 16 + x.toNat / 16 := by
  rw [rawAssemble, toNat_append_eq, toNat_append_eq, highNibble_toNat]
  omega

theorem rawAssemble_eq_ofNat (m l x : Byte) :
    rawAssemble m l x = BitVec.ofNat 20 (m.toNat * 4096 + l.toNat * 16 + x.toNat / 16) := by
  rw [← rawAssemble_toNat, BitVec.ofNat_toNat, BitVec.setWidth_eq]

end RawSample

/-- Settles O36: the fields of the assembly do not overlap. -/
theorem rawSampleProperties : Obligations.RawSampleProperties := by
  unfold Obligations.RawSampleProperties
  refine ⟨fun m l x => ⟨rawAssemble_toNat m l x, ?range, fun y hxy => ?nibble⟩, rfl⟩
  case range => omega
  case nibble => rw [rawAssemble_eq_ofNat, rawAssemble_eq_ofNat, hxy]

/-- Settles O34: the three reads go well, so the completion is the commit of `exec_readRaw_outcomes`. -/
theorem readRawAssemblesSample : Obligations.ReadRawAssemblesSample := by
  unfold Obligations.ReadRawAssemblesSample
  intro m l x s hp hP hR hwell
  have hreads : sensorReads (rawRegs s.cfg) (opened s) =
      (some [m, l, x], afterReads (rawRegs s.cfg) [m, l, x] (opened s)) :=
    sensorReads_of_wellBehaved rfl hp hP hR hwell
  rcases exec_readRaw_outcomes hp hreads with ⟨hnone, -⟩ | ⟨_, _, _, hsome, hexec⟩
  · cases hnone
  · cases hsome
    rw [hexec, rawAssemble_eq_ofNat]
    simp [afterReads, rawRegs, regPlus, opened, endedAccess, setRaw, setBusy, setResult]

end Sys2Proof.Machine
end

section
/-! PROOFS. The compensation formula: its identities, its bounds over the whole input domain, and when `TEMP` holds its
exact value (43_compensation.md R186, R189, R191). -/

namespace Sys2Proof.Machine

/-- Settles O40: each identity cancels a common power of 2. -/
theorem compensationIdentities : Obligations.CompensationIdentities := by
  unfold Obligations.CompensationIdentities
  refine ⟨fun raw t1 => ?half, fun v t3 => ?scaled⟩
  case half =>
    simp only [compVar1, shr, shl]
    omega
  case scaled =>
    calc shr (v * shl t3 4) 14 = 16 * (v * t3) / (16 * 1024) := by
          rw [shr, shl]; ring_nf
      _ = shr (v * t3) 10 := Int.mul_ediv_mul_of_pos _ _ (by decide)

section Exactness
/-! ### `TEMP` and the exact value -/

/-- The low 16 bits of an integer, read as signed, are the integer just where it fits (R189). -/
theorem tempLatch_toInt_iff (x : Int) : tempOverflows x = false ↔ (tempLatch x).toInt = x := by
  rw [tempLatch, BitVec.toInt_ofInt]
  simp only [tempOverflows, Bool.or_eq_false_iff, decide_eq_false_iff_not]
  refine ⟨fun h => ?_, fun h => ?_⟩
  · exact Int.bmod_eq_of_le (by omega) (by omega)
  · have hlo : -32768 ≤ x.bmod (2 ^ 16) := Int.le_bmod (by decide)
    have hhi : x.bmod (2 ^ 16) < 32768 := Int.bmod_lt (by decide)
    omega

end Exactness

/-- Settles O38: a CALC_TEMP that ends OK found `CAL_VALID` = 1 and left `compensated s`. -/
theorem tempIsExactUnlessOverflow : Obligations.TempIsExactUnlessOverflow := by
  unfold Obligations.TempIsExactUnlessOverflow
  intro s t h hresult
  cases hv : s.status.calValid
  case false =>
    rw [exec_calcTemp_of_uncalibrated hv] at h
    cases h
    cases hresult
  case true =>
    rw [exec_calcTemp_of_calibrated hv] at h
    cases h
    exact tempLatch_toInt_iff _

section Bounds
/-! ### The intermediates over the input domain (R186) -/

variable {raw t1 t2 t3 v : Int}

theorem compVar1_bounds (hraw : 0 ≤ raw ∧ raw ≤ 1048575) (h1 : 0 ≤ t1 ∧ t1 ≤ 65535) :
    -131070 ≤ compVar1 raw t1 ∧ compVar1 raw t1 ≤ 131071 := by
  simp only [compVar1, shr, shl]
  omega

/-- The extreme products pair the coefficient's −32768 with either end of `var1`. -/
theorem var1_mul_bounds (hv : -131070 ≤ v ∧ v ≤ 131071) (h2 : -32768 ≤ t2 ∧ t2 ≤ 32767) :
    -4294934528 ≤ v * t2 ∧ v * t2 ≤ 4294901760 := by
  rcases le_total 0 v with hsign | hsign <;> constructor <;> nlinarith

theorem compVar2_bounds (hv : -131070 ≤ v ∧ v ≤ 131071) (h2 : -32768 ≤ t2 ∧ t2 ≤ 32767) :
    -2097136 ≤ compVar2 v t2 ∧ compVar2 v t2 ≤ 2097120 := by
  obtain ⟨hlo, hhi⟩ := var1_mul_bounds hv h2
  rw [compVar2, shr]
  omega

theorem half_mul_half_bounds (hv : -131070 ≤ v ∧ v ≤ 131071) :
    0 ≤ shr v 1 * shr v 1 ∧ shr v 1 * shr v 1 ≤ 4294836225 := by
  have hhalf : -65535 ≤ shr v 1 ∧ shr v 1 ≤ 65535 := by
    rw [shr]
    omega
  exact ⟨mul_self_nonneg _, by nlinarith⟩

theorem compSquare_bounds (hv : -131070 ≤ v ∧ v ≤ 131071) : 0 ≤ compSquare v ∧ compSquare v ≤ 1048544 := by
  obtain ⟨hlo, hhi⟩ := half_mul_half_bounds hv
  rw [compSquare, shr]
  omega

theorem square_mul_bounds (hv : -131070 ≤ v ∧ v ≤ 131071) (h3 : -128 ≤ t3 ∧ t3 ≤ 127) :
    -2147418112 ≤ compSquare v * shl t3 4 ∧ compSquare v * shl t3 4 ≤ 2130641408 := by
  obtain ⟨hlo, hhi⟩ := compSquare_bounds hv
  rw [shl]
  constructor <;> nlinarith

theorem compVar3_bounds (hv : -131070 ≤ v ∧ v ≤ 131071) (h3 : -128 ≤ t3 ∧ t3 ≤ 127) :
    -131068 ≤ compVar3 v t3 ∧ compVar3 v t3 ≤ 130044 := by
  obtain ⟨hlo, hhi⟩ := square_mul_bounds hv h3
  rw [compVar3, shr]
  omega

theorem compTFine_bounds (hraw : 0 ≤ raw ∧ raw ≤ 1048575) (h1 : 0 ≤ t1 ∧ t1 ≤ 65535) (h2 : -32768 ≤ t2 ∧ t2 ≤ 32767)
    (h3 : -128 ≤ t3 ∧ t3 ≤ 127) : -2228204 ≤ compTFine raw t1 t2 t3 ∧ compTFine raw t1 t2 t3 ≤ 2227164 := by
  have hvar1 := compVar1_bounds hraw h1
  obtain ⟨h2lo, h2hi⟩ := compVar2_bounds hvar1 h2
  obtain ⟨h3lo, h3hi⟩ := compVar3_bounds hvar1 h3
  rw [compTFine]
  omega

theorem compensate_bounds (h : -2228204 ≤ compTFine raw t1 t2 t3 ∧ compTFine raw t1 t2 t3 ≤ 2227164) :
    -43520 ≤ compensate raw t1 t2 t3 ∧ compensate raw t1 t2 t3 ≤ 43499 := by
  rw [compensate, shr]
  omega

/-- The values of an unsigned register of `n` bits. -/
theorem register_toNat_bounds {n : Nat} (x : BitVec n) : (0 : Int) ≤ x.toNat ∧ (x.toNat : Int) ≤ 2 ^ n - 1 := by
  have hlt := x.isLt
  zify at hlt
  omega

/-- The values of a signed register. -/
theorem register_toInt_bounds {n : Nat} (x : BitVec (n + 1)) : -2 ^ n ≤ x.toInt ∧ x.toInt ≤ 2 ^ n - 1 := by
  have hlo := x.le_toInt
  have hhi := x.toInt_lt
  simp only [Nat.add_sub_cancel] at hlo hhi
  omega

end Bounds

/-- Settles O39: from each intermediate's bounds those of the next. -/
theorem compensationBounds : Obligations.CompensationBounds := by
  unfold Obligations.CompensationBounds
  refine ⟨fun raw t1 t2 t3 => ⟨_, rfl, ?_⟩, by decide, by decide, by decide, by decide, by decide, by decide, by decide,
    by decide⟩
  have hraw := register_toNat_bounds raw
  have h1 := register_toNat_bounds t1
  have h2 := register_toInt_bounds t2
  have h3 := register_toInt_bounds t3
  have hvar1 := compVar1_bounds hraw h1
  obtain ⟨hmulLo, hmulHi⟩ := var1_mul_bounds hvar1 h2
  obtain ⟨-, hsquare⟩ := half_mul_half_bounds hvar1
  obtain ⟨hprodLo, hprodHi⟩ := square_mul_bounds hvar1 h3
  have hfine := compTFine_bounds hraw h1 h2 h3
  obtain ⟨hlo, hhi⟩ := compensate_bounds hfine
  obtain ⟨hvarLo, hvarHi⟩ := hvar1
  obtain ⟨hfineLo, hfineHi⟩ := hfine
  exact ⟨hvarLo, hvarHi, abs_le.mpr ⟨hmulLo, by omega⟩, hsquare, abs_le.mpr ⟨hprodLo, by omega⟩,
    abs_le.mpr ⟨hfineLo, by omega⟩, hlo, hhi⟩

end Sys2Proof.Machine
end
